-- ==== Sys2Proof/Word.lean ====
section
/-!
DEFINITION. The data the spec calls words: digits, digit-field registers, cell ranges, instruction words.
-/

namespace Sys2Proof

/-- One cell: "every cell always holds 0–9" (R20, R21; a model may type a cell as a number below 10). -/
abbrev Digit := Fin 10

/-- A digit-field register: 14 cells, cell 0 the least significant (R7, R12, R20). -/
abbrev Reg := Vector Digit 14

/-- The register whose cells are all 0: the reset value of every register (R26, R48). -/
def Reg.zero : Reg := Vector.replicate 14 0

/-- The inclusive cell range an arithmetic instruction acts on, `lo` the start and `hi` the end (R120). -/
structure Field where
  lo : Nat
  hi : Nat
  deriving DecidableEq, Repr

/-- One word of instruction memory (R7, R50). -/
abbrev Word := BitVec 16

end Sys2Proof
end

