-- ==== Sys2Proof/Config.lean ====
section
/-!
DEFINITION. What an implementation fixes: the sizes of the instruction memory, what an address that no image names holds,
and the numbers of the undefined-opcode statuses, which no source gives.
-/

namespace Sys2Proof

/-- The four classes of type A, each with its own strictly checked decoder (R75, R270). -/
inductive OpClass where
  | romMisc
  | status
  | dataEntry
  | pointer
  deriving DecidableEq, Repr

/-- The number `I[3:2]` of a class (R75; the order of the source's list is the numeric order, D3). -/
def OpClass.number : OpClass → BitVec 2
  | .romMisc => 0
  | .status => 1
  | .dataEntry => 2
  | .pointer => 3

/-- `UndefinedOpcode(cls, frag)`: the pair that identifies an undefined opcode, `frag = I[9:2]` (R270, R273). -/
structure UndefinedOpcode where
  cls : OpClass
  frag : BitVec 8
  deriving DecidableEq, Repr

/-- Words of the instruction memory: 8 pages of 256 (R7, R50). -/
def Config.romWords : Nat := 2048

/-- What an address of the instruction memory holds that the image names no word for: 0x0000, the word of `NOP`.
DESIGN CHOICE (log entry 2): no source gives the contents of the memory (R9, R53); a state may list any word at any
address, so a claim over all states is a claim over all images. -/
def Config.romDefault : Word := 0

/-- The order of the undefined-opcode numbers inside a class: an arbitrary permutation, which nothing can evaluate.
Free value (log entry 5): R273 asks only that the codes are negative and different for different fragments of a class. -/
opaque Config.undefOrder : OpClass → Equiv.Perm Nat

/-- `undef_code(cls, frag)`: the negative status `Step` returns for an undefined opcode (R9, R273). Every function that
meets R273's two constraints is this one for some `Config.undefOrder`, and every such function meets them. -/
def Config.undefCode (u : UndefinedOpcode) : Int :=
  Int.negSucc (Config.undefOrder u.cls u.frag.toNat)

end Sys2Proof
end

