-- ==== Sys2Proof/Syntax.lean ====
section
/-!
DEFINITION. The instructions: one constructor for each of the 58 rows of spec/opcode_table.json (R84), in the table's order.
-/

namespace Sys2Proof

/-- The word-select modes 0..7 by their letter names (R92, R120). -/
inductive WordSel where
  /-- mode 0: the single cell at the pointer -/
  | p
  /-- mode 1: mantissa, cells 3..12 -/
  | m
  /-- mode 2: exponent, cells 0..2 -/
  | x
  /-- mode 3: the whole register, cells 0..13 -/
  | w
  /-- mode 4: from cell 0 through the pointer -/
  | wp
  /-- mode 5: mantissa and sign, cells 3..13 -/
  | ms
  /-- mode 6: exponent sign, cell 2 -/
  | xs
  /-- mode 7: mantissa sign, cell 13 -/
  | s
  deriving DecidableEq, Repr

/-- The instructions of the four type-A classes and of types B, C and D. A flag number, a pointer value and a constant are
the 4-bit field `n`, a page the 3-bit field `g`, a target the 8-bit field `t` (R73, R74, R76, R77). -/
inductive Instr where
  /-- `IF_B_EQ_0`: test B = 0 (R150). -/
  | ifBEq0 (ws : WordSel)
  /-- `CLR_B`: 0 -> B (R151). -/
  | clrB (ws : WordSel)
  /-- `IF_A_GE_C`: test A >= C (R152). -/
  | ifAGeC (ws : WordSel)
  /-- `IF_C_GE_1`: test C >= 1 (R153). -/
  | ifCGe1 (ws : WordSel)
  /-- `B_TO_C`: B -> C (R154). -/
  | bToC (ws : WordSel)
  /-- `NEG_C`: 0 - C -> C (R155). -/
  | negC (ws : WordSel)
  /-- `CLR_C`: 0 -> C (R156). -/
  | clrC (ws : WordSel)
  /-- `NEG_C_M1`: 0 - C - 1 -> C (R157). -/
  | negCM1 (ws : WordSel)
  /-- `SHL_A`: shift A left (R158). -/
  | shlA (ws : WordSel)
  /-- `A_TO_B`: A -> B (R159). -/
  | aToB (ws : WordSel)
  /-- `A_SUB_C_TO_C`: A - C -> C (R160). -/
  | aSubCToC (ws : WordSel)
  /-- `DEC_C`: C - 1 -> C (R161). -/
  | decC (ws : WordSel)
  /-- `C_TO_A`: C -> A (R162). -/
  | cToA (ws : WordSel)
  /-- `IF_C_EQ_0`: test C = 0 (R163). -/
  | ifCEq0 (ws : WordSel)
  /-- `A_ADD_C_TO_C`: A + C -> C (R164). -/
  | aAddCToC (ws : WordSel)
  /-- `INC_C`: C + 1 -> C (R165). -/
  | incC (ws : WordSel)
  /-- `IF_A_GE_B`: test A >= B (R166). -/
  | ifAGeB (ws : WordSel)
  /-- `B_EXCH_C`: B <-> C (R167). -/
  | bExchC (ws : WordSel)
  /-- `SHR_C`: shift C right (R168). -/
  | shrC (ws : WordSel)
  /-- `IF_A_GE_1`: test A >= 1 (R169). -/
  | ifAGe1 (ws : WordSel)
  /-- `SHR_B`: shift B right (R170). -/
  | shrB (ws : WordSel)
  /-- `C_ADD_C_TO_C`: C + C -> C (R171). -/
  | cAddCToC (ws : WordSel)
  /-- `SHR_A`: shift A right (R172). -/
  | shrA (ws : WordSel)
  /-- `CLR_A`: 0 -> A (R173). -/
  | clrA (ws : WordSel)
  /-- `A_SUB_B_TO_A`: A - B -> A (R174). -/
  | aSubBToA (ws : WordSel)
  /-- `A_EXCH_B`: A <-> B (R175). -/
  | aExchB (ws : WordSel)
  /-- `A_SUB_C_TO_A`: A - C -> A (R176). -/
  | aSubCToA (ws : WordSel)
  /-- `DEC_A`: A - 1 -> A (R177). -/
  | decA (ws : WordSel)
  /-- `A_ADD_B_TO_A`: A + B -> A (R178). -/
  | aAddBToA (ws : WordSel)
  /-- `A_EXCH_C`: A <-> C (R179). -/
  | aExchC (ws : WordSel)
  /-- `A_ADD_C_TO_A`: A + C -> A (R180). -/
  | aAddCToA (ws : WordSel)
  /-- `INC_A`: A + 1 -> A (R181). -/
  | incA (ws : WordSel)
  /-- `SET_S`: S[n] <- 1 (R200). -/
  | setS (n : BitVec 4)
  /-- `TEST_S`: if S[n] = 1 then CY <- 1 (R201). -/
  | testS (n : BitVec 4)
  /-- `RESET_S`: S[n] <- 0 (R202). -/
  | resetS (n : BitVec 4)
  /-- `CLEAR_STATUS`: S <- 0 (R203). -/
  | clearStatus
  /-- `SET_P`: P <- n (R210). -/
  | setP (n : BitVec 4)
  /-- `DEC_P`: P <- (P - 1) mod 16 (R211). -/
  | decP
  /-- `TEST_P`: if P = n then CY <- 1 (R212). -/
  | testP (n : BitVec 4)
  /-- `INC_P`: P <- (P + 1) mod 16 (R213). -/
  | incP
  /-- `LOAD_CONST`: C[P] <- n; P <- (P - 1) mod 16 (R220). -/
  | loadConst (n : BitVec 4)
  /-- `DISPLAY_TOGGLE`: DISP <- not DISP (R222). -/
  | displayToggle
  /-- `C_EXCH_M`: C <-> M (R223). -/
  | cExchM
  /-- `C_TO_STACK`: F <- E; E <- D; D <- C (R224). -/
  | cToStack
  /-- `STACK_TO_A`: A <- D; D <- E; E <- F (R225). -/
  | stackToA
  /-- `DISPLAY_OFF`: DISP <- 0 (R226). -/
  | displayOff
  /-- `M_TO_C`: C <- M (R227). -/
  | mToC
  /-- `DOWN_ROTATE`: C <- D; D <- E; E <- F; F <- old C (R228). -/
  | downRotate
  /-- `CLEAR_REGS`: A, B, C, D, E, F, M <- 0 (R229). -/
  | clearRegs
  /-- `DATA_TO_C`: if BANK < 10 then C <- AUX[BANK] (R230). -/
  | dataToC
  /-- `NOP`: nothing (R240). -/
  | nop
  /-- `SEL_ROM`: pc.page <- g (R241). -/
  | selRom (g : BitVec 3)
  /-- `RETURN`: pc.off <- RET (R242). -/
  | ret
  /-- `KEYS_TO_ROM`: pc.off <- KEY (R243). -/
  | keysToRom
  /-- `C_TO_ADDR`: BANK <- C[12] (R244). -/
  | cToAddr
  /-- `C_TO_DATA`: if BANK < 10 then AUX[BANK] <- C (R245). -/
  | cToData
  /-- `JSB`: RET <- pc.off; pc.off <- t (R260). -/
  | jsb (t : BitVec 8)
  /-- `BRANCH`: if CY = 0 then pc.off <- t; CY <- 0 (R261). -/
  | branch (t : BitVec 8)
  deriving DecidableEq, Repr

end Sys2Proof
end

