-- ==== Sys2Proof/WellFormed.lean ====
section
/-!
DEFINITION. Which instruction terms an encoding exists for.
-/

namespace Sys2Proof

/-- A flag number: the status word has the flags 0..11 (R77, R88). -/
def flagNumberOk (n : BitVec 4) : Bool := n.toNat < 12

/-- The terms that stand for an instruction of the opcode map: `SET_S`, `TEST_S` and `RESET_S` take a flag number 0..11, and
every other field is legal at every value (R77, R89; `LOAD_CONST` with a constant of 10..15 is mapped, R91). -/
def Instr.wellFormed : Instr → Bool
  | .ifBEq0 _ => true
  | .clrB _ => true
  | .ifAGeC _ => true
  | .ifCGe1 _ => true
  | .bToC _ => true
  | .negC _ => true
  | .clrC _ => true
  | .negCM1 _ => true
  | .shlA _ => true
  | .aToB _ => true
  | .aSubCToC _ => true
  | .decC _ => true
  | .cToA _ => true
  | .ifCEq0 _ => true
  | .aAddCToC _ => true
  | .incC _ => true
  | .ifAGeB _ => true
  | .bExchC _ => true
  | .shrC _ => true
  | .ifAGe1 _ => true
  | .shrB _ => true
  | .cAddCToC _ => true
  | .shrA _ => true
  | .clrA _ => true
  | .aSubBToA _ => true
  | .aExchB _ => true
  | .aSubCToA _ => true
  | .decA _ => true
  | .aAddBToA _ => true
  | .aExchC _ => true
  | .aAddCToA _ => true
  | .incA _ => true
  | .setS n => flagNumberOk n
  | .testS n => flagNumberOk n
  | .resetS n => flagNumberOk n
  | .clearStatus => true
  | .setP _ => true
  | .decP => true
  | .testP _ => true
  | .incP => true
  | .loadConst _ => true
  | .displayToggle => true
  | .cExchM => true
  | .cToStack => true
  | .stackToA => true
  | .displayOff => true
  | .mToC => true
  | .downRotate => true
  | .clearRegs => true
  | .dataToC => true
  | .nop => true
  | .selRom _ => true
  | .ret => true
  | .keysToRom => true
  | .cToAddr => true
  | .cToData => true
  | .jsb _ => true
  | .branch _ => true

end Sys2Proof
end

