-- ==== Sys2Proof/Decode.lean ====
section
/-!
DEFINITION. Decoding a 16-bit word (R70 to R91), and the encoder written from the same tables.
-/

namespace Sys2Proof

/-! ## Fields of the instruction `I = W[9:0]` -/

/-- `I[1:0]`, the type tag (R71). -/
def tagOf (w : Word) : BitVec 2 := w.extractLsb' 0 2

/-- `I[3:2]`, the class of a type-A instruction (R75). -/
def clsOf (w : Word) : BitVec 2 := w.extractLsb' 2 2

/-- `I[9:2]`, the fragment of an undefined-opcode report and the target of types B and D (R72, R73). -/
def fragOf (w : Word) : BitVec 8 := w.extractLsb' 2 8

/-- `I[4:2]`, the word-select mode of type C (R74). -/
def wsOf (w : Word) : BitVec 3 := w.extractLsb' 2 3

/-- `I[9:5]`, the operation of type C (R74). -/
def opOf (w : Word) : BitVec 5 := w.extractLsb' 5 5

/-- `I[9:4]`, the field `v` of type A (R75). -/
def vOf (w : Word) : BitVec 6 := w.extractLsb' 4 6

/-- `I[5:4]`, the sub-operation of a status or pointer instruction (R76). -/
def subOf (w : Word) : BitVec 2 := w.extractLsb' 4 2

/-- `I[9:6]`, the 4-bit operand of type A (R76). -/
def nOf (w : Word) : BitVec 4 := w.extractLsb' 6 4

/-- `I[6:4]`, the group of a data-entry or misc instruction (R76). -/
def selOf (w : Word) : BitVec 3 := w.extractLsb' 4 3

/-- `I[9:7]`, the page of `SEL_ROM` and the member of the data-entry group of eight (R76). -/
def gOf (w : Word) : BitVec 3 := w.extractLsb' 7 3

/-! ## The opcode map -/

/-- The word-select modes in the order of their numbers (R120). -/
def wordSelTable : Vector WordSel 8 := #v[.p, .m, .x, .w, .wp, .ms, .xs, .s]

/-- The mode that the 3-bit field names. -/
def WordSel.ofBits (b : BitVec 3) : WordSel := wordSelTable.get b.toFin

/-- The number of a mode (R120). -/
def WordSel.toBits : WordSel → BitVec 3
  | .p => 0
  | .m => 1
  | .x => 2
  | .w => 3
  | .wp => 4
  | .ms => 5
  | .xs => 6
  | .s => 7

/-- The 32 operations of type C in the order of `op` (R78). -/
def typeCTable : Vector (WordSel → Instr) 32 := #v[
  .ifBEq0, .clrB, .ifAGeC, .ifCGe1,
  .bToC, .negC, .clrC, .negCM1,
  .shlA, .aToB, .aSubCToC, .decC,
  .cToA, .ifCEq0, .aAddCToC, .incC,
  .ifAGeB, .bExchC, .shrC, .ifAGe1,
  .shrB, .cAddCToC, .shrA, .clrA,
  .aSubBToA, .aExchB, .aSubCToA, .decA,
  .aAddBToA, .aExchC, .aAddCToA, .incA]

/-- The eight operations selected by `I[9:7]` when `I[6:4] = 0b010` in the data-entry class (R81, R221). -/
def dataGroupTable : Vector Instr 8 := #v[
  .displayToggle, .cExchM, .cToStack, .stackToA,
  .displayOff, .mToC, .downRotate, .clearRegs]

/-! ## Decode (R85) -/

/-- The report of an undefined opcode of class `cls` (R72, R87). -/
def undefinedOpcode (cls : OpClass) (w : Word) : Except UndefinedOpcode Instr := .error ⟨cls, fragOf w⟩

/-- Type C: never undefined (R78, R85). -/
def decodeTypeC (w : Word) : Instr := typeCTable.get (opOf w).toFin (.ofBits (wsOf w))

/-- The status class: flag numbers 12..15 and a nonzero `n` on `CLEAR_STATUS` are undefined (R79, R87, R88). -/
def decodeStatus (w : Word) : Except UndefinedOpcode Instr :=
  if subOf w = 3 then (if nOf w = 0 then .ok .clearStatus else undefinedOpcode .status w)
  else if 11 < (nOf w).toNat then undefinedOpcode .status w
  else if subOf w = 0 then .ok (.setS (nOf w))
  else if subOf w = 1 then .ok (.testS (nOf w))
  else .ok (.resetS (nOf w))

/-- The pointer class: a nonzero `n` on `DEC_P` or `INC_P` is undefined (R80, R87, R89). -/
def decodePointer (w : Word) : Except UndefinedOpcode Instr :=
  if subOf w = 0 then .ok (.setP (nOf w))
  else if subOf w = 2 then .ok (.testP (nOf w))
  else if nOf w = 0 then (if subOf w = 1 then .ok .decP else .ok .incP)
  else undefinedOpcode .pointer w

/-- The data-entry/display class (R81, R87). -/
def decodeDataEntry (w : Word) : Except UndefinedOpcode Instr :=
  if subOf w = 1 then .ok (.loadConst (nOf w))
  else if selOf w = 2 then .ok (dataGroupTable.get (gOf w).toFin)
  else if vOf w = 0b101111 then .ok .dataToC
  else undefinedOpcode .dataEntry w

/-- The ROM-select/misc class (R82, R87). -/
def decodeRomMisc (w : Word) : Except UndefinedOpcode Instr :=
  if vOf w = 0 then .ok .nop
  else if selOf w = 1 then .ok (.selRom (gOf w))
  else if vOf w = 0b000011 then .ok .ret
  else if vOf w = 0b001101 then .ok .keysToRom
  else if vOf w = 0b100111 then .ok .cToAddr
  else if vOf w = 0b101111 then .ok .cToData
  else undefinedOpcode .romMisc w

/-- Type A: routed by `I[3:2]` to the four class decoders (R75). -/
def decodeTypeA (w : Word) : Except UndefinedOpcode Instr :=
  if clsOf w = 0 then decodeRomMisc w
  else if clsOf w = 1 then decodeStatus w
  else if clsOf w = 2 then decodeDataEntry w
  else decodePointer w

/-- The instruction a word stands for, or the report of an undefined opcode: total on every word (R85). Bits 15:10 take
no part (R8, R52). -/
def decode (w : Word) : Except UndefinedOpcode Instr :=
  if tagOf w = 0 then decodeTypeA w
  else if tagOf w = 1 then .ok (.jsb (fragOf w))
  else if tagOf w = 2 then .ok (decodeTypeC w)
  else .ok (.branch (fragOf w))

/-- The word of an instruction given as a number, bits above `nbits` zero. -/
def tableWord (nbits w : Nat) : Word := BitVec.ofNat 16 (w % 2 ^ nbits)

/-- What `decode` reads from an opcode-table word; the one word of an instruction is its whole storage (R70). -/
def decodeTableWord (nbits w : Nat) : Option Instr :=
  match decode (tableWord nbits w) with
  | .ok i => some i
  | .error _ => none

/-! ## Encode -/

/-- `I = op*32 + ws*4 + 2` (R78). -/
def encodeTypeC (op : BitVec 5) (ws : WordSel) : Word := (0 : BitVec 6) ++ op ++ ws.toBits ++ (2 : BitVec 2)

/-- `I = (n, sub, cls, 0b00)` (R75, R76). -/
def encodeTypeA (n : BitVec 4) (sub : BitVec 2) (cls : OpClass) : Word :=
  (0 : BitVec 6) ++ n ++ sub ++ cls.number ++ (0 : BitVec 2)

/-- `I = (g, sel, cls, 0b00)` (R75, R76). -/
def encodeTypeAGroup (g sel : BitVec 3) (cls : OpClass) : Word :=
  (0 : BitVec 6) ++ g ++ sel ++ cls.number ++ (0 : BitVec 2)

/-- `I = (v, cls, 0b00)` (R75). -/
def encodeTypeAFixed (v : BitVec 6) (cls : OpClass) : Word :=
  (0 : BitVec 6) ++ v ++ cls.number ++ (0 : BitVec 2)

/-- `I = (target, tag)` (R73). -/
def encodeTarget (t : BitVec 8) (tag : BitVec 2) : Word := (0 : BitVec 6) ++ t ++ tag

/-- The word of an instruction, bits 15:10 zero (R78 to R83). -/
def encode : Instr → Word
  | .ifBEq0 ws => encodeTypeC 0 ws
  | .clrB ws => encodeTypeC 1 ws
  | .ifAGeC ws => encodeTypeC 2 ws
  | .ifCGe1 ws => encodeTypeC 3 ws
  | .bToC ws => encodeTypeC 4 ws
  | .negC ws => encodeTypeC 5 ws
  | .clrC ws => encodeTypeC 6 ws
  | .negCM1 ws => encodeTypeC 7 ws
  | .shlA ws => encodeTypeC 8 ws
  | .aToB ws => encodeTypeC 9 ws
  | .aSubCToC ws => encodeTypeC 10 ws
  | .decC ws => encodeTypeC 11 ws
  | .cToA ws => encodeTypeC 12 ws
  | .ifCEq0 ws => encodeTypeC 13 ws
  | .aAddCToC ws => encodeTypeC 14 ws
  | .incC ws => encodeTypeC 15 ws
  | .ifAGeB ws => encodeTypeC 16 ws
  | .bExchC ws => encodeTypeC 17 ws
  | .shrC ws => encodeTypeC 18 ws
  | .ifAGe1 ws => encodeTypeC 19 ws
  | .shrB ws => encodeTypeC 20 ws
  | .cAddCToC ws => encodeTypeC 21 ws
  | .shrA ws => encodeTypeC 22 ws
  | .clrA ws => encodeTypeC 23 ws
  | .aSubBToA ws => encodeTypeC 24 ws
  | .aExchB ws => encodeTypeC 25 ws
  | .aSubCToA ws => encodeTypeC 26 ws
  | .decA ws => encodeTypeC 27 ws
  | .aAddBToA ws => encodeTypeC 28 ws
  | .aExchC ws => encodeTypeC 29 ws
  | .aAddCToA ws => encodeTypeC 30 ws
  | .incA ws => encodeTypeC 31 ws
  | .setS n => encodeTypeA n 0 .status
  | .testS n => encodeTypeA n 1 .status
  | .resetS n => encodeTypeA n 2 .status
  | .clearStatus => encodeTypeA 0 3 .status
  | .setP n => encodeTypeA n 0 .pointer
  | .decP => encodeTypeA 0 1 .pointer
  | .testP n => encodeTypeA n 2 .pointer
  | .incP => encodeTypeA 0 3 .pointer
  | .loadConst n => encodeTypeA n 1 .dataEntry
  | .displayToggle => encodeTypeAGroup 0 2 .dataEntry
  | .cExchM => encodeTypeAGroup 1 2 .dataEntry
  | .cToStack => encodeTypeAGroup 2 2 .dataEntry
  | .stackToA => encodeTypeAGroup 3 2 .dataEntry
  | .displayOff => encodeTypeAGroup 4 2 .dataEntry
  | .mToC => encodeTypeAGroup 5 2 .dataEntry
  | .downRotate => encodeTypeAGroup 6 2 .dataEntry
  | .clearRegs => encodeTypeAGroup 7 2 .dataEntry
  | .dataToC => encodeTypeAFixed 0b101111 .dataEntry
  | .nop => encodeTypeAFixed 0 .romMisc
  | .selRom g => encodeTypeAGroup g 1 .romMisc
  | .ret => encodeTypeAFixed 0b000011 .romMisc
  | .keysToRom => encodeTypeAFixed 0b001101 .romMisc
  | .cToAddr => encodeTypeAFixed 0b100111 .romMisc
  | .cToData => encodeTypeAFixed 0b101111 .romMisc
  | .jsb t => encodeTarget t 1
  | .branch t => encodeTarget t 3

end Sys2Proof
end

