-- ==== Sys2Proof/Machine/State.lean ====
section
/-!
DEFINITION. The processor state (10_state.md, R20 to R49), its reset value, and the reasons a step can stop.
-/

namespace Sys2Proof.Machine

/-- The instruction memory as (word address, word) pairs: addresses strictly rising, none with the word that an unlisted
address holds. The unit is one 16-bit word, not a byte (R14, R50; log entry 1). -/
abbrev Memory := List (Nat × Word)

/-- What `Step` returned: 0, or the negative code of an undefined opcode, held as the pair that names it (R106, R273). -/
inductive StepResult where
  | success
  | undefined (u : UndefinedOpcode)
  deriving DecidableEq, Repr

/-- The names of the seven digit-field registers (R22). -/
inductive RegName where
  | a
  | b
  | c
  | d
  | e
  | f
  | m
  deriving DecidableEq, Repr

/-- The processor-state record, the instruction memory beside it, and what the last `Step` returned. -/
structure State where
  /-- A, general scratch (R22, R23) -/
  a : Reg
  /-- B, general scratch (R22, R23) -/
  b : Reg
  /-- C, the register with the paths to auxiliary storage (R22, R23) -/
  c : Reg
  /-- D, first level of the user stack (R22, R24) -/
  d : Reg
  /-- E, second level of the user stack (R22, R24) -/
  e : Reg
  /-- F, third level of the user stack (R22, R24) -/
  f : Reg
  /-- M, the memory register (R22, R25) -/
  m : Reg
  /-- AUX[0..9], auxiliary storage (R48, R54) -/
  aux : Vector Reg 10
  /-- pc: page in bits 10:8, offset in bits 7:0 (R27) -/
  pc : BitVec 11
  /-- S, the flags 0..11 (R37) -/
  status : BitVec 12
  /-- RET, the saved offset, one level (R41) -/
  ret : BitVec 8
  /-- P, the pointer; 14 and 15 are legal contents (R40) -/
  p : BitVec 4
  /-- KEY, the latched key code (R42) -/
  key : BitVec 8
  /-- KDN, key down (R42) -/
  kdn : Bool
  /-- BANK, the bank-select register (R43; log entry 12) -/
  bank : BitVec 4
  /-- CY, the carry flag (R32 to R36) -/
  cy : Bool
  /-- WS, the word-select field of the last type-C instruction (R45; log entry 13) -/
  ws : WordSel
  /-- DISP, display on (R44) -/
  disp : Bool
  /-- ROM, the instruction memory, which no instruction writes (R9, R50) -/
  rom : Memory
  /-- the status the last `Step` returned (R19, R106) -/
  result : StepResult
  /-- the model's own: the first undefined opcode of the run, recorded and never cleared (R274; log entry 4) -/
  undefSeen : Option UndefinedOpcode
  deriving DecidableEq, Repr

/-- Reset zero-initialises the record (R26, R31, R36, R39 to R45, R48, R49, R301). The instruction memory is the image that
lists no word (log entry 2), and no step has returned anything yet (log entry 6). -/
def State.reset : State where
  a := Reg.zero
  b := Reg.zero
  c := Reg.zero
  d := Reg.zero
  e := Reg.zero
  f := Reg.zero
  m := Reg.zero
  aux := Vector.replicate 10 Reg.zero
  pc := 0
  status := 0
  ret := 0
  p := 0
  key := 0
  kdn := false
  bank := 0
  cy := false
  ws := .p
  disp := false
  rom := []
  result := .success
  undefSeen := none

/-- The two model faults of the spec: points where no source gives the hardware a behaviour and the spec asks that the step
have no successor (R280). Both are safe: the model stops where the hardware goes on, so no false claim can be proved. -/
inductive Fault where
  /-- Raised by a type-C instruction in word-select mode 0 or 4, and by `LOAD_CONST`, when P is 14 or 15 (R122, R220, R281).
  Safe. -/
  | pointerOutOfRange
  /-- Raised by `LOAD_CONST n` with `n` of 10..15 (R220, R282). Safe. -/
  | nonBcdConstant
  deriving DecidableEq, Repr

/-- Reasons a step has no meaning. -/
inductive Refusal where
  /-- An instruction that has no meaning in the model, by its mnemonic; no arm of `exec` answers it. Safe. -/
  | notModelled (mnemonic : String)
  deriving DecidableEq, Repr

/-- What one instruction or one step answers. -/
abbrev Exec := Host.Outcome State Fault Refusal

end Sys2Proof.Machine
end

