-- ==== Sys2Proof/Machine/Operands.lean ====
section
/-!
DEFINITION. Cells of a digit-field register, the word-select resolver, and the halves of the program counter.
-/

namespace Sys2Proof

/-! ## Cells (R12) -/

/-- `X[i]`; the cells are 0..13, and no rule reads another. -/
def Reg.cell (r : Reg) (i : Nat) : Digit := if h : i < 14 then r[i] else 0

/-- The register whose cell `i` is `g i`. -/
def Reg.tab (g : Nat → Digit) : Reg :=
  #v[g 0, g 1, g 2, g 3, g 4, g 5, g 6, g 7, g 8, g 9, g 10, g 11, g 12, g 13]

/-- Whether a cell lies in the range (R120, R124). -/
def Field.has (fl : Field) (i : Nat) : Bool := fl.lo ≤ i && i ≤ fl.hi

/-- The number of cells of a range, `n = hi - lo + 1` (R127). -/
def Field.width (fl : Field) : Nat := fl.hi + 1 - fl.lo

/-- `r` with the cells of the range replaced: "cells outside the range are left untouched" (R124). -/
def Reg.onField (r : Reg) (fl : Field) (g : Nat → Digit) : Reg := .tab fun i => if fl.has i then g i else r.cell i

/-- The decimal number that the `n` cells from `lo` upward spell (R12). -/
def Reg.numFrom (r : Reg) (lo : Nat) : Nat → Nat
  | 0 => 0
  | n + 1 => r.numFrom lo n + (r.cell (lo + n)).val * 10 ^ n

/-- `num(X, lo, hi)` (R12). -/
def Reg.num (r : Reg) (fl : Field) : Nat := r.numFrom fl.lo fl.width

/-- The digit of a number below 10. -/
def Digit.ofNat (n : Nat) : Digit := Fin.ofNat 10 n

/-! ## The word-select resolver -/

/-- `range(ws)` by the table of R120, `none` where a pointer of 14 or 15 would be a cell index (R122). -/
def WordSel.field (ws : WordSel) (p : BitVec 4) : Option Field :=
  match ws with
  | .p => if p.toNat < 14 then some ⟨p.toNat, p.toNat⟩ else none
  | .m => some ⟨3, 12⟩
  | .x => some ⟨0, 2⟩
  | .w => some ⟨0, 13⟩
  | .wp => if p.toNat < 14 then some ⟨0, p.toNat⟩ else none
  | .ms => some ⟨3, 13⟩
  | .xs => some ⟨2, 2⟩
  | .s => some ⟨13, 13⟩

/-! ## The halves of the program counter (R27) -/

/-- `pc.page = pc[10:8]` (R13). -/
def pageOf (pc : BitVec 11) : BitVec 3 := pc.extractLsb' 8 3

/-- `pc.off = pc[7:0]` (R13). -/
def offOf (pc : BitVec 11) : BitVec 8 := pc.extractLsb' 0 8

/-- The address of a page and an offset, `(page<<8)|offset` (R27). -/
def addrOf (page : BitVec 3) (off : BitVec 8) : BitVec 11 := page ++ off

end Sys2Proof
end

