-- ==== Sys2Proof/Machine/Flags.lean ====
section
/-!
DEFINITION. The carries, borrows and comparisons the arithmetic unit computes, and the flags of the status word.
-/

namespace Sys2Proof

/-! ## Carry and borrow -/

/-- The carry into cell `lo + n` of an addition that starts at cell `lo` with no carry in (R127). -/
def addCarry (x y : Reg) (lo : Nat) : Nat → Bool
  | 0 => false
  | n + 1 => 10 ≤ (x.cell (lo + n)).val + (y.cell (lo + n)).val + (addCarry x y lo n).toNat

/-- The digit that cell `lo + n` of the sum gets: "any digit sum ≥10 subtracts 10 and carries 1" (R127). -/
def addDigit (x y : Reg) (lo n : Nat) : Digit :=
  let sum := (x.cell (lo + n)).val + (y.cell (lo + n)).val + (addCarry x y lo n).toNat
  .ofNat (if 10 ≤ sum then sum - 10 else sum)

/-- The borrow into cell `lo + n` of a subtraction that starts at cell `lo` with no borrow in (R128). -/
def subBorrow (x y : Reg) (lo : Nat) : Nat → Bool
  | 0 => false
  | n + 1 => (x.cell (lo + n)).val < (y.cell (lo + n)).val + (subBorrow x y lo n).toNat

/-- The digit that cell `lo + n` of the difference gets: "any negative partial (a−b−borrow < 0) adds 10 and borrows 1"
(R128). -/
def subDigit (x y : Reg) (lo n : Nat) : Digit :=
  let take := (y.cell (lo + n)).val + (subBorrow x y lo n).toNat
  .ofNat (if (x.cell (lo + n)).val < take then (x.cell (lo + n)).val + 10 - take else (x.cell (lo + n)).val - take)

/-! ## Comparisons -/

/-- `compare-ge` over the `n` cells from `lo` upward, the highest first: carry is set at the first cell that differs if
`r1` is less there, and left as it was otherwise (R130; C3: the scan stops at the first difference in either direction). -/
def compareGe (r1 r2 : Reg) (lo : Nat) : Nat → Bool → Bool
  | 0, cy => cy
  | n + 1, cy =>
    if (r1.cell (lo + n)).val < (r2.cell (lo + n)).val then true
    else if (r2.cell (lo + n)).val < (r1.cell (lo + n)).val then cy
    else compareGe r1 r2 lo n cy

/-- `compare-zero` over the `n` cells from `lo` upward: carry is set if a cell is nonzero and left as it was otherwise
(R131). -/
def compareZero (r : Reg) (lo : Nat) : Nat → Bool → Bool
  | 0, cy => cy
  | n + 1, cy => compareZero r lo n (if r.cell (lo + n) ≠ 0 then true else cy)

/-! ## The status word (R37) -/

/-- `S[n]`. -/
def flagAt (status : BitVec 12) (n : BitVec 4) : Bool := status.getLsbD n.toNat

/-- `S[n] <- v`, the other flags unchanged. -/
def setFlag (status : BitVec 12) (n : BitVec 4) (v : Bool) : BitVec 12 :=
  if v then status ||| BitVec.twoPow 12 n.toNat else status &&& ~~~BitVec.twoPow 12 n.toNat

end Sys2Proof
end

