-- ==== Sys2Proof/Machine/Ops.lean ====
section
/-!
DEFINITION. The named operations over the state: instruction memory, registers, the common steps of the cycle, the
undefined-opcode report, the eight primitives of the arithmetic unit, auxiliary storage, and the caller's operations.
-/

namespace Sys2Proof.Machine

/-! ## Instruction memory (R50, R51) -/

/-- `MemRead(addr, 1)`: the word at an address; an address the list does not name holds `Config.romDefault`. -/
def Memory.read : Memory → Nat → Word
  | [], _ => Config.romDefault
  | (b, v) :: rest, a => if a = b then v else Memory.read rest a

/-- The memory that holds `w` at `a` and is otherwise the same, in the canonical form. No instruction does this (R50); it is
how an image is supplied (R9; log entry 3). -/
def Memory.write : Memory → Nat → Word → Memory
  | [], a, w => if w = Config.romDefault then [] else [(a, w)]
  | (b, v) :: rest, a, w =>
    if a < b then (if w = Config.romDefault then (b, v) :: rest else (a, w) :: (b, v) :: rest)
    else if a = b then (if w = Config.romDefault then rest else (a, w) :: rest)
    else (b, v) :: Memory.write rest a w

/-- Addresses strictly rise from `lo` on, stay in the memory, and no entry holds what an unlisted address holds. -/
def Memory.wfFrom : Memory → Nat → Bool
  | [], _ => true
  | (a, w) :: rest, lo => lo ≤ a && a < Config.romWords && w != Config.romDefault && Memory.wfFrom rest (a + 1)

/-- The canonical form of the instruction memory, in which equal memories are equal lists. -/
def Memory.wf (mem : Memory) : Bool := mem.wfFrom 0

/-- Step 1 of the cycle: "fetch the 16-bit word at the program counter's full 11-bit address" (R51, R101). -/
def State.fetch (s : State) : Word := Memory.read s.rom s.pc.toNat

/-- `s` with a word placed where the next step fetches. -/
def State.placeWord (s : State) (w : Word) : State := { s with rom := Memory.write s.rom s.pc.toNat w }

/-! ## Digit-field registers (R22) -/

/-- The register of a name. -/
def State.reg (s : State) : RegName → Reg
  | .a => s.a
  | .b => s.b
  | .c => s.c
  | .d => s.d
  | .e => s.e
  | .f => s.f
  | .m => s.m

/-- The register of a name replaced. -/
def State.setReg (s : State) (n : RegName) (v : Reg) : State :=
  match n with
  | .a => { s with a := v }
  | .b => { s with b := v }
  | .c => { s with c := v }
  | .d => { s with d := v }
  | .e => { s with e := v }
  | .f => { s with f := v }
  | .m => { s with m := v }

/-! ## The common steps of the cycle (R101 to R104) -/

/-- `pc.off <- t`, the page unchanged (R14). -/
def State.setOff (s : State) (t : BitVec 8) : State := { s with pc := addrOf (pageOf s.pc) t }

/-- `pc.page <- g`, the offset unchanged (R14). -/
def State.setPage (s : State) (g : BitVec 3) : State := { s with pc := addrOf g (offOf s.pc) }

/-- Step 2: the offset advances by one modulo 256 and the page stays (R29, R102). -/
def State.advance (s : State) : State := s.setOff (offOf s.pc + 1)

/-- Step 3: `S[0] <- KDN` (R103). -/
def State.mergeKey (s : State) : State := { s with status := setFlag s.status 0 s.kdn }

/-- Step 4: carry is cleared unless the word is of type D (R104). -/
def State.clearCarry (s : State) (w : Word) : State := if tagOf w = 3 then s else { s with cy := false }

/-- Steps 2 to 4 of the cycle for the word `w`; the step returns success unless a decoder reports otherwise (R106, R107). -/
def State.beginCycle (s : State) (w : Word) : State :=
  { (s.advance.mergeKey.clearCarry w) with result := .success }

/-! ## The undefined opcode (R270 to R274) -/

/-- `raise UndefinedOpcode(cls, frag)`: `Step` returns the code of the pair "and that is all"; what the common steps have
done stays done (R271), and the core goes on with the next word if it is stepped again (R274). The report is also recorded
for the run and never cleared (R274; log entry 4). -/
def State.raiseUndefinedOpcode (s : State) (u : UndefinedOpcode) : State :=
  { s with result := .undefined u, undefSeen := s.undefSeen <|> some u }

/-- The number the last `Step` returned: 0, or the negative code of the undefined opcode (R106, R272). -/
def State.stepCode (s : State) : Int :=
  match s.result with
  | .success => 0
  | .undefined u => Config.undefCode u

/-! ## Type C: the common operation and the primitives over the resolved field -/

/-- `WS <- ws; (lo, hi) <- range(WS)`, then the operation; the model fault of R122 where the range has no meaning
(R183, R281). -/
def typeC (ws : WordSel) (s : State) (op : Field → State → State) : Exec :=
  match ws.field s.p with
  | none => .fault .pointerOutOfRange
  | some fl => .next (op fl { s with ws := ws })

/-- `copy(dst, src)` (R125). -/
def State.copyField (dst src : RegName) (fl : Field) (s : State) : State :=
  s.setReg dst ((s.reg dst).onField fl (s.reg src).cell)

/-- `exchange(r1, r2)` (R126). -/
def State.exchangeField (r1 r2 : RegName) (fl : Field) (s : State) : State :=
  (s.setReg r1 ((s.reg r1).onField fl (s.reg r2).cell)).setReg r2 ((s.reg r2).onField fl (s.reg r1).cell)

/-- `clear(r)`: zero fill of the range (R133). -/
def State.clearField (r : RegName) (fl : Field) (s : State) : State := s.setReg r ((s.reg r).onField fl fun _ => 0)

/-- `shift(r, left)`: toward the higher cell, the lowest cell of the range cleared (R132). -/
def State.shiftLeft (r : RegName) (fl : Field) (s : State) : State :=
  s.setReg r ((s.reg r).onField fl fun i => if i = fl.lo then 0 else (s.reg r).cell (i - 1))

/-- `shift(r, right)`: toward the lower cell, the highest cell of the range cleared (R132). -/
def State.shiftRight (r : RegName) (fl : Field) (s : State) : State :=
  s.setReg r ((s.reg r).onField fl fun i => if i = fl.hi then 0 else (s.reg r).cell (i + 1))

/-- `add(x, y, z)`: the sum into `z`, the carry out of the top of the range into CY (R127). -/
def State.addInto (z : RegName) (x y : Reg) (fl : Field) (s : State) : State :=
  { (s.setReg z ((s.reg z).onField fl fun i => addDigit x y fl.lo (i - fl.lo))) with
    cy := addCarry x y fl.lo fl.width }

/-- `subtract(x, y, z)`: the difference into `z`, the borrow out of the top of the range into CY (R128). -/
def State.subInto (z : RegName) (x y : Reg) (fl : Field) (s : State) : State :=
  { (s.setReg z ((s.reg z).onField fl fun i => subDigit x y fl.lo (i - fl.lo))) with
    cy := subBorrow x y fl.lo fl.width }

/-- `set-to-one` into the instruction's own scratch: the field ONE (R46, R129). -/
def oneField (fl : Field) : Reg := Reg.zero.onField fl fun i => if i = fl.lo then 1 else 0

/-- `compare-ge(r1, r2)` (R130). -/
def State.compareGeField (r1 r2 : Reg) (fl : Field) (s : State) : State :=
  { s with cy := compareGe r1 r2 fl.lo fl.width s.cy }

/-- `compare-zero(r)` (R131). -/
def State.compareZeroField (r : Reg) (fl : Field) (s : State) : State :=
  { s with cy := compareZero r fl.lo fl.width s.cy }

/-- `0 - r - 1 -> r`: every cell of the range becomes 9 minus itself, and CY becomes 1 (R157; log entry 11). -/
def State.ninesComplement (r : RegName) (fl : Field) (s : State) : State :=
  { (s.setReg r ((s.reg r).onField fl fun i => .ofNat (9 - ((s.reg r).cell i).val))) with cy := true }

/-! ## Auxiliary storage (R56 to R59) -/

/-- `AuxRead(b)` for a bank of 0..9; nothing for a bank of 10..15 (R56, R58). -/
def State.auxRead (s : State) (bank : BitVec 4) : Option Reg :=
  if h : bank.toNat < 10 then some s.aux[bank.toNat] else none

/-- `AuxWrite(b, X)` for a bank of 0..9; nothing for a bank of 10..15 (R57, R58). -/
def State.auxWrite (s : State) (bank : BitVec 4) (x : Reg) : State :=
  if h : bank.toNat < 10 then { s with aux := s.aux.set bank.toNat x } else s

/-! ## The caller's operations (R100, R108, R300) -/

/-- `key_down(code)`: `KEY <- code`, `KDN <- 1` (R108). -/
def State.keyDown (s : State) (code : BitVec 8) : State := { s with key := code, kdn := true }

/-- `key_up()`: `KDN <- 0`; the latched code stays (R108). -/
def State.keyUp (s : State) : State := { s with kdn := false }

/-- `Reset`: the record goes to its reset values; the instruction memory is not part of it (R300, R303), and the run's
record of an undefined opcode is never cleared (R274; log entry 6). -/
def State.hostReset (s : State) : State := { State.reset with rom := s.rom, undefSeen := s.undefSeen }

end Sys2Proof.Machine
end

