-- ==== Sys2Proof/Machine/Arithmetic.lean ====
section
/-!
DEFINITION. Type C, the arithmetic/register class (42_arithmetic_register.md, R150 to R185), in the order of `op`.
-/

namespace Sys2Proof.Machine

/-- `IF_B_EQ_0 ws`: CY 1 if a cell of B in the field is nonzero (R150). -/
def execIfBEq0 (ws : WordSel) (s : State) : Exec := typeC ws s (fun fl t => t.compareZeroField t.b fl)

/-- `CLR_B ws`: `clear(B)` (R151). -/
def execClrB (ws : WordSel) (s : State) : Exec := typeC ws s (State.clearField .b)

/-- `IF_A_GE_C ws`: CY 1 if A is less than C in the field (R152). -/
def execIfAGeC (ws : WordSel) (s : State) : Exec := typeC ws s (fun fl t => t.compareGeField t.a t.c fl)

/-- `IF_C_GE_1 ws`: `set-to-one(ONE); compare-ge(C, ONE)` (R153). -/
def execIfCGe1 (ws : WordSel) (s : State) : Exec := typeC ws s (fun fl t => t.compareGeField t.c (oneField fl) fl)

/-- `B_TO_C ws`: `copy(C, B)` (R154). -/
def execBToC (ws : WordSel) (s : State) : Exec := typeC ws s (State.copyField .c .b)

/-- `NEG_C ws`: `subtract(ZERO, C, C)` (R155). -/
def execNegC (ws : WordSel) (s : State) : Exec := typeC ws s (fun fl t => t.subInto .c Reg.zero t.c fl)

/-- `CLR_C ws`: `clear(C)` (R156). -/
def execClrC (ws : WordSel) (s : State) : Exec := typeC ws s (State.clearField .c)

/-- `NEG_C_M1 ws`: nine's complement of C (R157). -/
def execNegCM1 (ws : WordSel) (s : State) : Exec := typeC ws s (State.ninesComplement .c)

/-- `SHL_A ws`: `shift(A, left)` (R158). -/
def execShlA (ws : WordSel) (s : State) : Exec := typeC ws s (State.shiftLeft .a)

/-- `A_TO_B ws`: `copy(B, A)` (R159). -/
def execAToB (ws : WordSel) (s : State) : Exec := typeC ws s (State.copyField .b .a)

/-- `A_SUB_C_TO_C ws`: `subtract(A, C, C)` (R160). -/
def execASubCToC (ws : WordSel) (s : State) : Exec := typeC ws s (fun fl t => t.subInto .c t.a t.c fl)

/-- `DEC_C ws`: `set-to-one(ONE); subtract(C, ONE, C)` (R161). -/
def execDecC (ws : WordSel) (s : State) : Exec := typeC ws s (fun fl t => t.subInto .c t.c (oneField fl) fl)

/-- `C_TO_A ws`: `copy(A, C)` (R162). -/
def execCToA (ws : WordSel) (s : State) : Exec := typeC ws s (State.copyField .a .c)

/-- `IF_C_EQ_0 ws`: CY 1 if a cell of C in the field is nonzero (R163). -/
def execIfCEq0 (ws : WordSel) (s : State) : Exec := typeC ws s (fun fl t => t.compareZeroField t.c fl)

/-- `A_ADD_C_TO_C ws`: `add(A, C, C)` (R164). -/
def execAAddCToC (ws : WordSel) (s : State) : Exec := typeC ws s (fun fl t => t.addInto .c t.a t.c fl)

/-- `INC_C ws`: `set-to-one(ONE); add(C, ONE, C)` (R165). -/
def execIncC (ws : WordSel) (s : State) : Exec := typeC ws s (fun fl t => t.addInto .c t.c (oneField fl) fl)

/-- `IF_A_GE_B ws`: CY 1 if A is less than B in the field (R166). -/
def execIfAGeB (ws : WordSel) (s : State) : Exec := typeC ws s (fun fl t => t.compareGeField t.a t.b fl)

/-- `B_EXCH_C ws`: `exchange(B, C)` (R167). -/
def execBExchC (ws : WordSel) (s : State) : Exec := typeC ws s (State.exchangeField .b .c)

/-- `SHR_C ws`: `shift(C, right)` (R168). -/
def execShrC (ws : WordSel) (s : State) : Exec := typeC ws s (State.shiftRight .c)

/-- `IF_A_GE_1 ws`: `set-to-one(ONE); compare-ge(A, ONE)` (R169). -/
def execIfAGe1 (ws : WordSel) (s : State) : Exec := typeC ws s (fun fl t => t.compareGeField t.a (oneField fl) fl)

/-- `SHR_B ws`: `shift(B, right)` (R170). -/
def execShrB (ws : WordSel) (s : State) : Exec := typeC ws s (State.shiftRight .b)

/-- `C_ADD_C_TO_C ws`: `add(C, C, C)` (R171). -/
def execCAddCToC (ws : WordSel) (s : State) : Exec := typeC ws s (fun fl t => t.addInto .c t.c t.c fl)

/-- `SHR_A ws`: `shift(A, right)` (R172). -/
def execShrA (ws : WordSel) (s : State) : Exec := typeC ws s (State.shiftRight .a)

/-- `CLR_A ws`: `clear(A)` (R173). -/
def execClrA (ws : WordSel) (s : State) : Exec := typeC ws s (State.clearField .a)

/-- `A_SUB_B_TO_A ws`: `subtract(A, B, A)` (R174). -/
def execASubBToA (ws : WordSel) (s : State) : Exec := typeC ws s (fun fl t => t.subInto .a t.a t.b fl)

/-- `A_EXCH_B ws`: `exchange(A, B)` (R175). -/
def execAExchB (ws : WordSel) (s : State) : Exec := typeC ws s (State.exchangeField .a .b)

/-- `A_SUB_C_TO_A ws`: `subtract(A, C, A)` (R176). -/
def execASubCToA (ws : WordSel) (s : State) : Exec := typeC ws s (fun fl t => t.subInto .a t.a t.c fl)

/-- `DEC_A ws`: `set-to-one(ONE); subtract(A, ONE, A)` (R177). -/
def execDecA (ws : WordSel) (s : State) : Exec := typeC ws s (fun fl t => t.subInto .a t.a (oneField fl) fl)

/-- `A_ADD_B_TO_A ws`: `add(A, B, A)` (R178). -/
def execAAddBToA (ws : WordSel) (s : State) : Exec := typeC ws s (fun fl t => t.addInto .a t.a t.b fl)

/-- `A_EXCH_C ws`: `exchange(A, C)` (R179). -/
def execAExchC (ws : WordSel) (s : State) : Exec := typeC ws s (State.exchangeField .a .c)

/-- `A_ADD_C_TO_A ws`: `add(A, C, A)` (R180). -/
def execAAddCToA (ws : WordSel) (s : State) : Exec := typeC ws s (fun fl t => t.addInto .a t.a t.c fl)

/-- `INC_A ws`: `set-to-one(ONE); add(A, ONE, A)` (R181). -/
def execIncA (ws : WordSel) (s : State) : Exec := typeC ws s (fun fl t => t.addInto .a t.a (oneField fl) fl)

end Sys2Proof.Machine
end

