-- ==== Sys2Proof/Machine/CallBranch.lean ====
section
/-!
DEFINITION. Types B and D, which the execution engine handles directly (47_call_branch.md, R260 to R264).
-/

namespace Sys2Proof.Machine

/-- `JSB`: `RET <- pc.off; pc.off <- t`, `pc.off` being the offset after the `JSB` (R260). -/
def execJsb (t : BitVec 8) (s : State) : Exec := .next ({ s with ret := offOf s.pc }.setOff t)

/-- `BRANCH`: `if CY = 0 then pc.off <- t; CY <- 0`, CY being the one the previous step left (R104, R261). -/
def execBranch (t : BitVec 8) (s : State) : Exec := .next { (if s.cy then s else s.setOff t) with cy := false }

end Sys2Proof.Machine
end

