-- ==== Sys2Proof/Machine/DataEntry.lean ====
section
/-!
DEFINITION. Type A class 2, the data-entry/display class (45_data_entry_display.md, R220 to R232). No instruction of the class uses
word-select or writes CY.
-/

namespace Sys2Proof.Machine

/-- `LOAD_CONST`: `C[P] <- n; P <- (P - 1) mod 16`, with the two model faults in the order of R283 (R220). -/
def execLoadConst (n : BitVec 4) (s : State) : Exec :=
  if 10 ≤ n.toNat then .fault .nonBcdConstant
  else if 14 ≤ s.p.toNat then .fault .pointerOutOfRange
  else .next { s with c := s.c.onField ⟨s.p.toNat, s.p.toNat⟩ fun _ => .ofNat n.toNat, p := s.p - 1 }

/-- `DISPLAY_TOGGLE`: `DISP <- 1 - DISP` (R222). -/
def execDisplayToggle (s : State) : Exec := .next { s with disp := !s.disp }

/-- `C_EXCH_M`: `C <- M; M <- C` simultaneously (R223). -/
def execCExchM (s : State) : Exec := .next { s with c := s.m, m := s.c }

/-- `C_TO_STACK`: `F <- E; E <- D; D <- C` (R224). -/
def execCToStack (s : State) : Exec := .next { s with f := s.e, e := s.d, d := s.c }

/-- `STACK_TO_A`: `A <- D; D <- E; E <- F`, F kept (R225). -/
def execStackToA (s : State) : Exec := .next { s with a := s.d, d := s.e, e := s.f }

/-- `DISPLAY_OFF`: `DISP <- 0` (R226). -/
def execDisplayOff (s : State) : Exec := .next { s with disp := false }

/-- `M_TO_C`: `C <- M` (R227). -/
def execMToC (s : State) : Exec := .next { s with c := s.m }

/-- `DOWN_ROTATE`: `t <- C; C <- D; D <- E; E <- F; F <- t` (R228). -/
def execDownRotate (s : State) : Exec := .next { s with c := s.d, d := s.e, e := s.f, f := s.c }

/-- `CLEAR_REGS`: every cell of the seven registers <- 0 (R229). -/
def execClearRegs (s : State) : Exec :=
  .next { s with a := Reg.zero, b := Reg.zero, c := Reg.zero, d := Reg.zero, e := Reg.zero, f := Reg.zero, m := Reg.zero }

/-- `DATA_TO_C`: `if BANK < 10 then C <- AuxRead(BANK)` (R230). -/
def execDataToC (s : State) : Exec :=
  match s.auxRead s.bank with
  | some x => .next { s with c := x }
  | none => .next s

end Sys2Proof.Machine
end

