-- ==== Sys2Proof/Machine/Pointer.lean ====
section
/-!
DEFINITION. Type A class 3, the pointer class (44_pointer.md, R210 to R215).
-/

namespace Sys2Proof.Machine

/-- `SET_P`: `P <- n`; 14 and 15 are ordinary values (R210). -/
def execSetP (n : BitVec 4) (s : State) : Exec := .next { s with p := n }

/-- `DEC_P`: `P <- (P - 1) mod 16` (R211). -/
def execDecP (s : State) : Exec := .next { s with p := s.p - 1 }

/-- `TEST_P`: `if P = n then CY <- 1` (R212). -/
def execTestP (n : BitVec 4) (s : State) : Exec := .next { s with cy := s.cy || s.p == n }

/-- `INC_P`: `P <- (P + 1) mod 16` (R213). -/
def execIncP (s : State) : Exec := .next { s with p := s.p + 1 }

end Sys2Proof.Machine
end

