-- ==== Sys2Proof/Machine/RomSelect.lean ====
section
/-!
DEFINITION. Type A class 0, the ROM-select/misc class (46_rom_select_misc.md, R240 to R247). No instruction of the class writes CY.
-/

namespace Sys2Proof.Machine

/-- `NOP`: nothing beyond the common steps (R240). -/
def execNop (s : State) : Exec := .next s

/-- `SEL_ROM`: `pc.page <- g` (R241). -/
def execSelRom (g : BitVec 3) (s : State) : Exec := .next (s.setPage g)

/-- `RETURN`: `pc.off <- RET`, the page unchanged (R242). -/
def execRet (s : State) : Exec := .next (s.setOff s.ret)

/-- `KEYS_TO_ROM`: `pc.off <- KEY`, whether or not a key is down (R243). -/
def execKeysToRom (s : State) : Exec := .next (s.setOff s.key)

/-- `C_TO_ADDR`: `BANK <- C[12]` (R244). -/
def execCToAddr (s : State) : Exec := .next { s with bank := BitVec.ofNat 4 (s.c.cell 12).val }

/-- `C_TO_DATA`: `if BANK < 10 then AuxWrite(BANK, C)` (R245). -/
def execCToData (s : State) : Exec := .next (s.auxWrite s.bank s.c)

end Sys2Proof.Machine
end

