-- ==== Sys2Proof/Machine/Status.lean ====
section
/-!
DEFINITION. Type A class 1, the status class (43_status.md, R200 to R206). A flag number of 12..15, which the decoder already
refuses, raises the undefined opcode here too (R88, R204; log entry 17).
-/

namespace Sys2Proof.Machine

/-- `SET_S`: `S[n] <- 1` (R200). -/
def execSetS (n : BitVec 4) (s : State) : Exec :=
  if flagNumberOk n then .next { s with status := setFlag s.status n true }
  else .next (s.raiseUndefinedOpcode ⟨.status, fragOf (encode (.setS n))⟩)

/-- `TEST_S`: `if S[n] = 1 then CY <- 1` (R201). -/
def execTestS (n : BitVec 4) (s : State) : Exec :=
  if flagNumberOk n then .next { s with cy := s.cy || flagAt s.status n }
  else .next (s.raiseUndefinedOpcode ⟨.status, fragOf (encode (.testS n))⟩)

/-- `RESET_S`: `S[n] <- 0` (R202). -/
def execResetS (n : BitVec 4) (s : State) : Exec :=
  if flagNumberOk n then .next { s with status := setFlag s.status n false }
  else .next (s.raiseUndefinedOpcode ⟨.status, fragOf (encode (.resetS n))⟩)

/-- `CLEAR_STATUS`: `S <- 0`, all 12 bits (R203). -/
def execClearStatus (s : State) : Exec := .next { s with status := 0 }

end Sys2Proof.Machine
end

