-- ==== Sys2Proof/Machine/Dispatch.lean ====
section
/-!
DEFINITION. Step 5 of the cycle: each instruction routed to its meaning (R105).
-/

namespace Sys2Proof.Machine

/-- The operation of a decoded instruction, on the state that the common steps left (R105, R107). -/
def exec (i : Instr) (s : State) : Host.Outcome State Fault Refusal :=
  match i with
  | .ifBEq0 ws => Sys2Proof.Machine.execIfBEq0 ws s
  | .clrB ws => Sys2Proof.Machine.execClrB ws s
  | .ifAGeC ws => Sys2Proof.Machine.execIfAGeC ws s
  | .ifCGe1 ws => Sys2Proof.Machine.execIfCGe1 ws s
  | .bToC ws => Sys2Proof.Machine.execBToC ws s
  | .negC ws => Sys2Proof.Machine.execNegC ws s
  | .clrC ws => Sys2Proof.Machine.execClrC ws s
  | .negCM1 ws => Sys2Proof.Machine.execNegCM1 ws s
  | .shlA ws => Sys2Proof.Machine.execShlA ws s
  | .aToB ws => Sys2Proof.Machine.execAToB ws s
  | .aSubCToC ws => Sys2Proof.Machine.execASubCToC ws s
  | .decC ws => Sys2Proof.Machine.execDecC ws s
  | .cToA ws => Sys2Proof.Machine.execCToA ws s
  | .ifCEq0 ws => Sys2Proof.Machine.execIfCEq0 ws s
  | .aAddCToC ws => Sys2Proof.Machine.execAAddCToC ws s
  | .incC ws => Sys2Proof.Machine.execIncC ws s
  | .ifAGeB ws => Sys2Proof.Machine.execIfAGeB ws s
  | .bExchC ws => Sys2Proof.Machine.execBExchC ws s
  | .shrC ws => Sys2Proof.Machine.execShrC ws s
  | .ifAGe1 ws => Sys2Proof.Machine.execIfAGe1 ws s
  | .shrB ws => Sys2Proof.Machine.execShrB ws s
  | .cAddCToC ws => Sys2Proof.Machine.execCAddCToC ws s
  | .shrA ws => Sys2Proof.Machine.execShrA ws s
  | .clrA ws => Sys2Proof.Machine.execClrA ws s
  | .aSubBToA ws => Sys2Proof.Machine.execASubBToA ws s
  | .aExchB ws => Sys2Proof.Machine.execAExchB ws s
  | .aSubCToA ws => Sys2Proof.Machine.execASubCToA ws s
  | .decA ws => Sys2Proof.Machine.execDecA ws s
  | .aAddBToA ws => Sys2Proof.Machine.execAAddBToA ws s
  | .aExchC ws => Sys2Proof.Machine.execAExchC ws s
  | .aAddCToA ws => Sys2Proof.Machine.execAAddCToA ws s
  | .incA ws => Sys2Proof.Machine.execIncA ws s
  | .setS n => Sys2Proof.Machine.execSetS n s
  | .testS n => Sys2Proof.Machine.execTestS n s
  | .resetS n => Sys2Proof.Machine.execResetS n s
  | .clearStatus => Sys2Proof.Machine.execClearStatus s
  | .setP n => Sys2Proof.Machine.execSetP n s
  | .decP => Sys2Proof.Machine.execDecP s
  | .testP n => Sys2Proof.Machine.execTestP n s
  | .incP => Sys2Proof.Machine.execIncP s
  | .loadConst n => Sys2Proof.Machine.execLoadConst n s
  | .displayToggle => Sys2Proof.Machine.execDisplayToggle s
  | .cExchM => Sys2Proof.Machine.execCExchM s
  | .cToStack => Sys2Proof.Machine.execCToStack s
  | .stackToA => Sys2Proof.Machine.execStackToA s
  | .displayOff => Sys2Proof.Machine.execDisplayOff s
  | .mToC => Sys2Proof.Machine.execMToC s
  | .downRotate => Sys2Proof.Machine.execDownRotate s
  | .clearRegs => Sys2Proof.Machine.execClearRegs s
  | .dataToC => Sys2Proof.Machine.execDataToC s
  | .nop => Sys2Proof.Machine.execNop s
  | .selRom g => Sys2Proof.Machine.execSelRom g s
  | .ret => Sys2Proof.Machine.execRet s
  | .keysToRom => Sys2Proof.Machine.execKeysToRom s
  | .cToAddr => Sys2Proof.Machine.execCToAddr s
  | .cToData => Sys2Proof.Machine.execCToData s
  | .jsb t => Sys2Proof.Machine.execJsb t s
  | .branch t => Sys2Proof.Machine.execBranch t s

end Sys2Proof.Machine
end

