-- ==== Sys2Proof/Machine/Step.lean ====
section
/-!
DEFINITION. One `Step`, and where it fetches its instruction.
-/

namespace Sys2Proof.Machine

/-- One instruction cycle (R107): fetch, the common steps, then the decoded instruction's operation or the undefined-opcode
report. -/
def step (s : State) : Host.Outcome State Fault Refusal :=
  match decode s.fetch with
  | .ok i => exec i (s.beginCycle s.fetch)
  | .error u => .next ((s.beginCycle s.fetch).raiseUndefinedOpcode u)

/-- `s` with the opcode-table word placed at the program counter, which is all a step fetches (R101). -/
def State.withFetchWord (s : State) (nbits w : Nat) : State := s.placeWord (tableWord nbits w)

end Sys2Proof.Machine
end

