-- ==== Sys2Proof/Safety.lean ====
section
/-!
DEFINITION. The terms the statements use: what an instruction reads and writes, when two states agree, the invariant of the
machine, and what a run must avoid.
-/

namespace Sys2Proof

/-- The word-select operand of a type-C instruction; no other instruction has one (R74, R183). -/
def Instr.wordSel : Instr → Option WordSel
  | .ifBEq0 ws | .clrB ws | .ifAGeC ws | .ifCGe1 ws | .bToC ws | .negC ws | .clrC ws | .negCM1 ws => some ws
  | .shlA ws | .aToB ws | .aSubCToC ws | .decC ws | .cToA ws | .ifCEq0 ws | .aAddCToC ws | .incC ws => some ws
  | .ifAGeB ws | .bExchC ws | .shrC ws | .ifAGe1 ws | .shrB ws | .cAddCToC ws | .shrA ws | .clrA ws => some ws
  | .aSubBToA ws | .aExchB ws | .aSubCToA ws | .decA ws | .aAddBToA ws | .aExchC ws | .aAddCToA ws | .incA ws => some ws
  | .setS _ | .testS _ | .resetS _ | .clearStatus | .setP _ | .decP | .testP _ | .incP => none
  | .loadConst _ | .displayToggle | .cExchM | .cToStack | .stackToA | .displayOff | .mToC | .downRotate => none
  | .clearRegs | .dataToC | .nop | .selRom _ | .ret | .keysToRom | .cToAddr | .cToData | .jsb _ | .branch _ => none

/-- The instructions that write CY beyond the clear of step 4: the tests and the arithmetic of type C, `TEST_S` and `TEST_P`
(R33); the clear that `BRANCH` does itself leaves 0 too. -/
def Instr.givesCarry : Instr → Bool
  | .ifBEq0 _ | .ifAGeC _ | .ifCGe1 _ | .ifCEq0 _ | .ifAGeB _ | .ifAGe1 _ => true
  | .negC _ | .negCM1 _ | .aSubCToC _ | .decC _ | .aAddCToC _ | .incC _ | .cAddCToC _ => true
  | .aSubBToA _ | .aSubCToA _ | .decA _ | .aAddBToA _ | .aAddCToA _ | .incA _ => true
  | .testS _ | .testP _ => true
  | .clrB _ | .bToC _ | .clrC _ | .shlA _ | .aToB _ | .cToA _ | .bExchC _ | .shrC _ | .shrB _ | .shrA _ => false
  | .clrA _ | .aExchB _ | .aExchC _ | .setS _ | .resetS _ | .clearStatus | .setP _ | .decP | .incP => false
  | .loadConst _ | .displayToggle | .cExchM | .cToStack | .stackToA | .displayOff | .mToC | .downRotate => false
  | .clearRegs | .dataToC | .nop | .selRom _ | .ret | .keysToRom | .cToAddr | .cToData | .jsb _ | .branch _ => false

/-- The words of a class that its table leaves unmapped, by the fields of R87. -/
def unmappedIn (w : Word) : OpClass → Bool
  | .romMisc =>
    selOf w != 1 && vOf w != 0x00 && vOf w != 0x03 && vOf w != 0x0D && vOf w != 0x27 && vOf w != 0x2F
  | .status => (subOf w != 3 && 12 ≤ (nOf w).toNat) || (subOf w == 3 && nOf w != 0)
  | .dataEntry => subOf w != 1 && selOf w != 2 && vOf w != 0x2F
  | .pointer => (subOf w == 1 || subOf w == 3) && nOf w != 0

namespace Machine

/-! ## Agreement of states -/

/-- The states agree in everything but WS, whose value between steps no claim may depend on (R45; log entry 13). -/
def AgreeButWs (t u : State) : Prop := { t with ws := u.ws } = u

/-- The answer with the state it goes on in mapped. -/
def mapNext (g : State → State) : Exec → Exec
  | .next t => .next (g t)
  | .fault r => .fault r
  | .refused r => .refused r

/-- The cells of `r'` outside the field are those of `r` (R124). -/
def KeepsOutside (fl : Field) (r r' : Reg) : Prop := ∀ i, i < 14 → fl.has i = false → r'.cell i = r.cell i

/-- Only the register `z`, and of it only cells in the field, differ between the states (R184; WS aside). -/
def WritesField (z : RegName) (fl : Field) (s t : State) : Prop :=
  AgreeButWs t (s.setReg z (t.reg z)) ∧ KeepsOutside fl (s.reg z) (t.reg z)

/-- Only the register `z`, of it only cells in the field, and CY differ between the states (R184; WS aside). -/
def WritesFieldAndCarry (z : RegName) (fl : Field) (s t : State) : Prop :=
  AgreeButWs t { s.setReg z (t.reg z) with cy := t.cy } ∧ KeepsOutside fl (s.reg z) (t.reg z)

/-- Only CY differs between the states, and it is `carry` (WS aside). -/
def WritesCarry (carry : Bool) (s t : State) : Prop := AgreeButWs t { s with cy := carry }

/-- `z` gets the sum of `x` and `y` over the field, and CY the carry out of it (R127). -/
def AddsInto (z : RegName) (x y : Nat) (fl : Field) (s t : State) : Prop :=
  (t.reg z).num fl = (x + y) % 10 ^ fl.width ∧ t.cy = decide (10 ^ fl.width ≤ x + y) ∧ WritesFieldAndCarry z fl s t

/-- `z` gets the difference of `x` and `y` over the field, the ten's complement where it is negative, and CY the borrow
(R128). -/
def SubtractsInto (z : RegName) (x y : Nat) (fl : Field) (s t : State) : Prop :=
  (t.reg z).num fl = (x + 10 ^ fl.width - y) % 10 ^ fl.width ∧ t.cy = decide (x < y) ∧ WritesFieldAndCarry z fl s t

/-! ## The invariant and safe runs -/

/-- What holds of every state a run reaches: the instruction memory is in its canonical form, the bank-select register is a
bank (R43: no instruction can make it exceed 9), and an undefined opcode that the last step reported is on record (R274). -/
def State.Inv (s : State) : Prop :=
  Memory.wf s.rom = true ∧ s.bank.toNat < 10 ∧ (s.result ≠ .success → s.undefSeen ≠ none)

/-- A state of a run that a claim may be made of: no step of the run met an undefined opcode (R274). -/
def State.Clean (s : State) : Prop := s.undefSeen = none

/-- The next step is one the spec gives a meaning: it does not use a pointer of 14 or 15 as a cell index and does not load a
constant above 9 (R281, R282). -/
def State.NextIsDefined (s : State) : Prop := ∃ t, step s = .next t

end Machine

end Sys2Proof
end

