-- ==== Sys2Proof/Certificates/Slice0/Obligations.lean ====
section
/-!
DEFINITION. The statements for the provers, from the numbered rules of spec/. A register, a flag or a byte of state that a
conclusion does not name is unchanged: a conclusion gives the whole next state, up to WS, of which no claim may depend
between steps (R45; log entry 13). The bit patterns are the spec's from general knowledge (D2; log entry 9), so a statement
about them is about the table the spec adopted.
-/

open Sys2Proof Sys2Proof.Machine

/-! ## Encoding -/

/-- R85 with R78 to R83, for every operand the encoding admits: no bit of an encoding is dropped. The table is the spec's own
adoption (D2; log entry 9). -/
def Obligations.DecodeOfEncode : Prop :=
  ∀ i : Instr, i.wellFormed = true → decode (encode i) = .ok i

/-- R85 with R78 to R83: a word that decodes is, in its bits 9:0, the encoding of what it decodes to (D1, D2; log entries 9
and 10). -/
def Obligations.EncodeOfDecode : Prop :=
  ∀ (w : Word) (i : Instr), decode w = .ok i → i.wellFormed = true ∧ encode i = w &&& 0x03FF

/-- R8 and R52: bits 15:10 of the fetched word influence neither decoding nor what the step does (the spec's decision D1; log
entry 10). The premise is that the instruction memory is in its canonical form, so that the placed word is the one fetched. -/
def Obligations.UpperBitsNeverInfluence : Prop :=
  ∀ (s : State) (w v : Word), Memory.wf s.rom = true → w.extractLsb' 0 10 = v.extractLsb' 0 10 →
    decode w = decode v ∧
    mapNext (fun t => { t with rom := s.rom }) (step (s.placeWord w)) =
      mapNext (fun t => { t with rom := s.rom }) (step (s.placeWord v))

/-- R87, R88, R270 and R273: the undefined opcodes are the type-A words that their class's table leaves unmapped, reported
under their class and fragment, and no word of type B, C or D is one (which values are unmapped is the spec's reading D4; log
entry 20). -/
def Obligations.UndefinedWordsAreTheUnmappedOnes : Prop :=
  ∀ (w : Word) (u : UndefinedOpcode), decode w = .error u ↔
    tagOf w = 0 ∧ clsOf w = u.cls.number ∧ u.frag = fragOf w ∧ unmappedIn w u.cls = true

/-- R84: how many of the 1024 values of `I` each class maps, and that 147 are undefined (counts of the adopted table, D2, D4;
log entries 9 and 20). -/
def Obligations.OpcodeMapCounts : Prop :=
  let words := (List.range 1024).map (BitVec.ofNat 16)
  let mapped := words.filter fun w => (decode w).toOption.isSome
  (words.filter fun w => tagOf w = 1).length = 256 ∧
  (words.filter fun w => tagOf w = 3).length = 256 ∧
  (mapped.filter fun w => tagOf w = 2).length = 256 ∧
  (mapped.filter fun w => tagOf w = 0 ∧ clsOf w = 1).length = 37 ∧
  (mapped.filter fun w => tagOf w = 0 ∧ clsOf w = 3).length = 34 ∧
  (mapped.filter fun w => tagOf w = 0 ∧ clsOf w = 2).length = 25 ∧
  (mapped.filter fun w => tagOf w = 0 ∧ clsOf w = 0).length = 13 ∧
  1024 - mapped.length = 147

/-- One word of every class, written out from R73, R78 to R83, decodes to its instruction (D2; log entry 9). Every operation and
operand is tied to its pattern by `TypeCOpcodeMap` and `TypeAOpcodeMap` here, and by `JsbSavesTheOffsetAndJumps` and
`BranchTransfersOnCarryClear` below. -/
def Obligations.WordsOfTheOpcodeMapDecode : Prop :=
  decode 0b0000001010000110 = .ok (.shrB .m) ∧
  decode 0b0000001011010100 = .ok (.testS 11) ∧
  decode 0b0000001100101100 = .ok (.testP 12) ∧
  decode 0b0000000111011000 = .ok (.loadConst 7) ∧
  decode 0b0000001100101000 = .ok .downRotate ∧
  decode 0b0000000100010000 = .ok (.selRom 2) ∧
  decode 0b0000000100000001 = .ok (.jsb 0x40) ∧
  decode 0b0000000011101011 = .ok (.branch 0x3A) ∧
  decode 0b0000001100000100 = .error ⟨.status, 0xC1⟩

/-- R78 and R120: the pattern of each of the 32 operations of type C, `I = op*32 + ws*4 + 2`, for every mode, and the number of
each mode; with `DecodeOfEncode`, each of the 256 words decodes to its row. The operation patterns are the spec's adoption (D2;
log entry 9). -/
def Obligations.TypeCOpcodeMap : Prop :=
  WordSel.toBits .p = 0 ∧ WordSel.toBits .m = 1 ∧ WordSel.toBits .x = 2 ∧ WordSel.toBits .w = 3 ∧
  WordSel.toBits .wp = 4 ∧ WordSel.toBits .ms = 5 ∧ WordSel.toBits .xs = 6 ∧ WordSel.toBits .s = 7 ∧
  ∀ ws : WordSel,
    (encode (.ifBEq0 ws)).toNat = 0 * 32 + ws.toBits.toNat * 4 + 2 ∧
    (encode (.clrB ws)).toNat = 1 * 32 + ws.toBits.toNat * 4 + 2 ∧
    (encode (.ifAGeC ws)).toNat = 2 * 32 + ws.toBits.toNat * 4 + 2 ∧
    (encode (.ifCGe1 ws)).toNat = 3 * 32 + ws.toBits.toNat * 4 + 2 ∧
    (encode (.bToC ws)).toNat = 4 * 32 + ws.toBits.toNat * 4 + 2 ∧
    (encode (.negC ws)).toNat = 5 * 32 + ws.toBits.toNat * 4 + 2 ∧
    (encode (.clrC ws)).toNat = 6 * 32 + ws.toBits.toNat * 4 + 2 ∧
    (encode (.negCM1 ws)).toNat = 7 * 32 + ws.toBits.toNat * 4 + 2 ∧
    (encode (.shlA ws)).toNat = 8 * 32 + ws.toBits.toNat * 4 + 2 ∧
    (encode (.aToB ws)).toNat = 9 * 32 + ws.toBits.toNat * 4 + 2 ∧
    (encode (.aSubCToC ws)).toNat = 10 * 32 + ws.toBits.toNat * 4 + 2 ∧
    (encode (.decC ws)).toNat = 11 * 32 + ws.toBits.toNat * 4 + 2 ∧
    (encode (.cToA ws)).toNat = 12 * 32 + ws.toBits.toNat * 4 + 2 ∧
    (encode (.ifCEq0 ws)).toNat = 13 * 32 + ws.toBits.toNat * 4 + 2 ∧
    (encode (.aAddCToC ws)).toNat = 14 * 32 + ws.toBits.toNat * 4 + 2 ∧
    (encode (.incC ws)).toNat = 15 * 32 + ws.toBits.toNat * 4 + 2 ∧
    (encode (.ifAGeB ws)).toNat = 16 * 32 + ws.toBits.toNat * 4 + 2 ∧
    (encode (.bExchC ws)).toNat = 17 * 32 + ws.toBits.toNat * 4 + 2 ∧
    (encode (.shrC ws)).toNat = 18 * 32 + ws.toBits.toNat * 4 + 2 ∧
    (encode (.ifAGe1 ws)).toNat = 19 * 32 + ws.toBits.toNat * 4 + 2 ∧
    (encode (.shrB ws)).toNat = 20 * 32 + ws.toBits.toNat * 4 + 2 ∧
    (encode (.cAddCToC ws)).toNat = 21 * 32 + ws.toBits.toNat * 4 + 2 ∧
    (encode (.shrA ws)).toNat = 22 * 32 + ws.toBits.toNat * 4 + 2 ∧
    (encode (.clrA ws)).toNat = 23 * 32 + ws.toBits.toNat * 4 + 2 ∧
    (encode (.aSubBToA ws)).toNat = 24 * 32 + ws.toBits.toNat * 4 + 2 ∧
    (encode (.aExchB ws)).toNat = 25 * 32 + ws.toBits.toNat * 4 + 2 ∧
    (encode (.aSubCToA ws)).toNat = 26 * 32 + ws.toBits.toNat * 4 + 2 ∧
    (encode (.decA ws)).toNat = 27 * 32 + ws.toBits.toNat * 4 + 2 ∧
    (encode (.aAddBToA ws)).toNat = 28 * 32 + ws.toBits.toNat * 4 + 2 ∧
    (encode (.aExchC ws)).toNat = 29 * 32 + ws.toBits.toNat * 4 + 2 ∧
    (encode (.aAddCToA ws)).toNat = 30 * 32 + ws.toBits.toNat * 4 + 2 ∧
    (encode (.incA ws)).toNat = 31 * 32 + ws.toBits.toNat * 4 + 2

/-- R79 to R82: the pattern of each instruction of the four type-A classes, for every operand; with `DecodeOfEncode`, each of
these words decodes to its row (a flag number of 12..15 has the pattern too, and its word is undefined, R88). The patterns are
the spec's adoption (D2, D3; log entry 9). -/
def Obligations.TypeAOpcodeMap : Prop :=
  (∀ n : BitVec 4,
    (encode (.setS n)).toNat = n.toNat * 64 + 0x004 ∧ (encode (.testS n)).toNat = n.toNat * 64 + 0x014 ∧
    (encode (.resetS n)).toNat = n.toNat * 64 + 0x024 ∧ encode .clearStatus = 0x034 ∧
    (encode (.setP n)).toNat = n.toNat * 64 + 0x00C ∧ encode .decP = 0x01C ∧
    (encode (.testP n)).toNat = n.toNat * 64 + 0x02C ∧ encode .incP = 0x03C ∧
    (encode (.loadConst n)).toNat = n.toNat * 64 + 0x018 ∧
    encode .displayToggle = 0x028 ∧ encode .cExchM = 0x0A8 ∧ encode .cToStack = 0x128 ∧ encode .stackToA = 0x1A8 ∧
    encode .displayOff = 0x228 ∧ encode .mToC = 0x2A8 ∧ encode .downRotate = 0x328 ∧ encode .clearRegs = 0x3A8 ∧
    encode .dataToC = 0x2F8) ∧
  (∀ g : BitVec 3,
    encode .nop = 0x000 ∧ (encode (.selRom g)).toNat = g.toNat * 128 + 0x010 ∧ encode .ret = 0x030 ∧
    encode .keysToRom = 0x0D0 ∧ encode .cToAddr = 0x270 ∧ encode .cToData = 0x2F0)

/-! ## The instruction cycle -/

/-- R107: a step runs the instruction the fetched word stands for, on the state that steps 2 to 4 of the cycle leave. -/
def Obligations.StepRunsTheDecodedInstruction : Prop :=
  ∀ (s : State) (i : Instr), i.wellFormed = true → decode (Memory.read s.rom s.pc.toNat) = .ok i →
    step s = exec i (s.beginCycle (Memory.read s.rom s.pc.toNat))

/-- R102, R103, R104: the offset advances by one modulo 256 in its page, flag 0 takes the key-down state and no other flag
changes, and carry is cleared except for type D; nothing else of the record changes. That the returned status is success until
a decoder reports otherwise is R106 and R107, held in the model's own field `result` (log entry 6). -/
def Obligations.CommonStepsOfTheCycle : Prop :=
  ∀ (s : State) (w : Word), ∃ t : State, t = s.beginCycle w ∧
    pageOf t.pc = pageOf s.pc ∧ (offOf t.pc).toNat = ((offOf s.pc).toNat + 1) % 256 ∧
    flagAt t.status 0 = s.kdn ∧ (∀ n : BitVec 4, n ≠ 0 → flagAt t.status n = flagAt s.status n) ∧
    t.cy = (if w.extractLsb' 0 2 ≠ 3 then false else s.cy) ∧ t.result = .success ∧
    t = { s with pc := t.pc, status := t.status, cy := t.cy, result := t.result }

/-- R271: at an undefined opcode the step does the common steps, returns the code of the pair, and changes nothing else of the
machine; the core is not halted (R274). The record `undefSeen` of the run's first report is the model's own, its form of the
spec's decision D14 in R274, and `result` the model's field for the returned status (log entries 4 and 6). -/
def Obligations.UndefinedOpcodeStep : Prop :=
  ∀ (s : State) (u : UndefinedOpcode), decode s.fetch = .error u →
    ∃ t : State, step s = .next t ∧
      pageOf t.pc = pageOf s.pc ∧ offOf t.pc = offOf s.pc + 1 ∧
      flagAt t.status 0 = s.kdn ∧ (∀ n : BitVec 4, n ≠ 0 → flagAt t.status n = flagAt s.status n) ∧
      t.cy = false ∧ t.result = .undefined u ∧ t.stepCode = Config.undefCode u ∧ t.undefSeen = (s.undefSeen <|> some u) ∧
      t = { s with pc := t.pc, status := t.status, cy := t.cy, result := t.result, undefSeen := t.undefSeen }

/-- R264: where every decoded instruction leaves the page and the offset, what `JSB` saves, and that `BRANCH` clears carry. The
rule is the spec's own summary, marked derived there: that `KEYS_TO_ROM` uses KEY whether or not a key is down is its decision
D28 (log entry 14), that `SEL_ROM` takes effect at once on the advanced offset its decision D26 (log entry 19), and which words
are `RETURN`, `KEYS_TO_ROM` and `SEL_ROM` its adoption D2 (log entry 9). -/
def Obligations.ControlTransferOfEveryStep : Prop :=
  ∀ (s t : State) (i : Instr), decode s.fetch = .ok i → step s = .next t →
    pageOf t.pc = (match i with | .selRom g => g | _ => pageOf s.pc) ∧
    offOf t.pc = (match i with
      | .jsb target => target
      | .branch target => if s.cy then offOf s.pc + 1 else target
      | .ret => s.ret
      | .keysToRom => s.key
      | _ => offOf s.pc + 1) ∧
    t.ret = (match i with | .jsb _ => offOf s.pc + 1 | _ => s.ret) ∧
    (∀ target, i = .branch target → t.cy = false)

/-- Every step keeps the invariant: the instruction memory in its canonical form, BANK a bank (R43, R21) and a reported
undefined opcode on record (R274; the record is the model's, log entry 6). -/
def Obligations.StepKeepsTheInvariant : Prop :=
  ∀ s t : State, s.Inv → step s = .next t → t.Inv

/-- The state after reset meets the invariant (R49). -/
def Obligations.ResetMeetsTheInvariant : Prop :=
  State.reset.Inv

/-- R33, R34, R35: the carry that a step finds influences it only if the fetched word is of type D, and after a step CY is 0
unless the instruction is one that gives a carry. -/
def Obligations.CarryLivesForOneInstruction : Prop :=
  (∀ (s : State) (carry : Bool), s.fetch.extractLsb' 0 2 ≠ 3 → step { s with cy := carry } = step s) ∧
  (∀ s t : State, step s = .next t → (∀ i, decode s.fetch = .ok i → i.givesCarry = false) → t.cy = false)

/-- R45: the value WS has before a step influences nothing: the answers agree in everything but WS. -/
def Obligations.WordSelectFieldInfluencesNothing : Prop :=
  ∀ (s : State) (ws : WordSel),
    mapNext (fun t => { t with ws := .p }) (step { s with ws := ws }) = mapNext (fun t => { t with ws := .p }) (step s)

/-- R103, R205, R316: after every step flag 0 is the key-down state, unless the instruction just wrote flag 0; and `TEST_S 0`
gives the key-down state of its own cycle. -/
def Obligations.FlagZeroMirrorsTheKey : Prop :=
  ∀ (s t : State), step s = .next t →
    (decode s.fetch ≠ .ok (.setS 0) → decode s.fetch ≠ .ok (.resetS 0) → decode s.fetch ≠ .ok .clearStatus →
      flagAt t.status 0 = s.kdn) ∧
    (decode s.fetch = .ok (.testS 0) → t.cy = s.kdn)

/-- R23, R24, R25, R38, R41, R42, R43, R44, R45, R48, R50, R215: which steps can change each register, the auxiliary storage,
the display flag and each flag but flag 0, and that none changes the key latch or the instruction memory. What can change flag 0
is in `FlagZeroMirrorsTheKey`, CY in `CarryLivesForOneInstruction`, the program counter in `ControlTransferOfEveryStep`. Which
operations the writers are is the spec's from general knowledge (D2, D9, D27, D29; log entries 9, 12 and 14); that no
instruction but type C writes WS is the choice D13 (log entry 13). -/
def Obligations.OnlyNamedInstructionsWriteStorage : Prop :=
  ∀ s t : State, step s = .next t →
    t.key = s.key ∧ t.kdn = s.kdn ∧ t.rom = s.rom ∧
    (t.a ≠ s.a → ∃ i, decode s.fetch = .ok i ∧ (i.wordSel ≠ none ∨ i ∈ [Instr.stackToA, .clearRegs])) ∧
    (t.b ≠ s.b → ∃ i, decode s.fetch = .ok i ∧ (i.wordSel ≠ none ∨ i = .clearRegs)) ∧
    (t.c ≠ s.c → ∃ i, decode s.fetch = .ok i ∧
      (i.wordSel ≠ none ∨ (∃ n, i = .loadConst n) ∨ i ∈ [Instr.cExchM, .mToC, .downRotate, .dataToC, .clearRegs])) ∧
    (t.ws ≠ s.ws → ∃ i, decode s.fetch = .ok i ∧ i.wordSel = some t.ws) ∧
    (t.m ≠ s.m → ∃ i ∈ [Instr.cExchM, .clearRegs], decode s.fetch = .ok i) ∧
    ((t.d ≠ s.d ∨ t.e ≠ s.e ∨ t.f ≠ s.f) →
      ∃ i ∈ [Instr.cToStack, .stackToA, .downRotate, .clearRegs], decode s.fetch = .ok i) ∧
    (t.aux ≠ s.aux → decode s.fetch = .ok .cToData) ∧
    (t.bank ≠ s.bank → decode s.fetch = .ok .cToAddr) ∧
    (t.disp ≠ s.disp → ∃ i ∈ [Instr.displayToggle, .displayOff], decode s.fetch = .ok i) ∧
    (t.ret ≠ s.ret → ∃ target, decode s.fetch = .ok (.jsb target)) ∧
    (t.p ≠ s.p → decode s.fetch = .ok .decP ∨ decode s.fetch = .ok .incP ∨
      ∃ n, decode s.fetch = .ok (.setP n) ∨ decode s.fetch = .ok (.loadConst n)) ∧
    (∀ k : BitVec 4, k ≠ 0 → flagAt t.status k ≠ flagAt s.status k →
      decode s.fetch = .ok .clearStatus ∨ decode s.fetch = .ok (.setS k) ∨ decode s.fetch = .ok (.resetS k))

/-- R220, R281, R282, R283: a step ends in a model fault exactly where a pointer of 14 or 15 would be a cell index or a
constant above 9 would be loaded (the spec's decisions D6, D7; log entries 7 and 8). -/
def Obligations.StepFaultsExactlyWhere : Prop :=
  ∀ (s : State) (r : Fault), step s = .fault r ↔
    ∃ i, decode s.fetch = .ok i ∧
      match r with
      | .nonBcdConstant => ∃ n : BitVec 4, i = .loadConst n ∧ 10 ≤ n.toNat
      | .pointerOutOfRange => 14 ≤ s.p.toNat ∧
          (i.wordSel = some .p ∨ i.wordSel = some .wp ∨ ∃ n : BitVec 4, i = .loadConst n ∧ n.toNat < 10)

/-- R276: a step fully applies an instruction's effect, reports an undefined opcode, or meets one of the two model faults:
no step is refused. -/
def Obligations.StepIsNeverRefused : Prop :=
  ∀ (s : State) (r : Refusal), step s ≠ .refused r

/-- R106, R272, R273: the status of a step that has a next state is 0 exactly when the decoded instruction is mapped, and
otherwise a negative number; within one class different fragments have different numbers (the numbers are free; log entry
5). -/
def Obligations.StatusTellsWhetherTheOpcodeIsMapped : Prop :=
  (∀ s t : State, step s = .next t →
    ((∃ i, decode s.fetch = .ok i) → t.stepCode = 0) ∧ ((∃ u, decode s.fetch = .error u) → t.stepCode < 0)) ∧
  (∀ (cls : OpClass) (f g : BitVec 8), Config.undefCode ⟨cls, f⟩ = Config.undefCode ⟨cls, g⟩ → f = g)

/-- R274: once an undefined opcode is recorded, no step and no operation of the caller clears or replaces the record (the
record is the model's; log entries 4 and 6). -/
def Obligations.UndefinedRecordIsNeverCleared : Prop :=
  ∀ (s t : State) (u : UndefinedOpcode) (code : BitVec 8), s.undefSeen = some u →
    (step s = .next t → t.undefSeen = some u) ∧ (s.keyDown code).undefSeen = some u ∧ s.keyUp.undefSeen = some u ∧
    s.hostReset.undefSeen = some u

/-! ## Word-select and the arithmetic unit -/

/-- R120 and R123: the range of each mode, and of the two modes that read the pointer for every pointer that is a cell
index. -/
def Obligations.WordSelectTable : Prop :=
  ∀ p : BitVec 4,
    (p.toNat < 14 → WordSel.field .p p = some ⟨p.toNat, p.toNat⟩) ∧
    WordSel.field .m p = some ⟨3, 12⟩ ∧ WordSel.field .x p = some ⟨0, 2⟩ ∧ WordSel.field .w p = some ⟨0, 13⟩ ∧
    (p.toNat < 14 → WordSel.field .wp p = some ⟨0, p.toNat⟩) ∧
    WordSel.field .ms p = some ⟨3, 13⟩ ∧ WordSel.field .xs p = some ⟨2, 2⟩ ∧ WordSel.field .s p = some ⟨13, 13⟩

/-- R121, R122: a resolved range is never degenerate and never leaves the 14 cells, and there is none exactly in modes 0 and 4
with a pointer of 14 or 15 (the last is the spec's decision D6; log entry 7). -/
def Obligations.RangeStaysInTheRegister : Prop :=
  ∀ (ws : WordSel) (p : BitVec 4),
    (∀ fl, ws.field p = some fl → fl.lo ≤ fl.hi ∧ fl.hi < 14) ∧
    (ws.field p = none ↔ 14 ≤ p.toNat ∧ (ws = .p ∨ ws = .wp))

/-- R127: the law of `add` over a field of `n` digits, for every destination and every state, with no carry in. -/
def Obligations.AddPrimitiveLaw : Prop :=
  ∀ (z : RegName) (x y : Reg) (fl : Field) (s : State), fl.lo ≤ fl.hi → fl.hi < 14 →
    ∃ t, t = s.addInto z x y fl ∧
      (t.reg z).num fl = (x.num fl + y.num fl) % 10 ^ (fl.hi - fl.lo + 1) ∧
      (t.cy = true ↔ 10 ^ (fl.hi - fl.lo + 1) ≤ x.num fl + y.num fl) ∧
      KeepsOutside fl (s.reg z) (t.reg z) ∧ t = { s.setReg z (t.reg z) with cy := t.cy }

/-- R128: the law of `subtract` over a field of `n` digits: the non-negative residue, and the borrow in carry. -/
def Obligations.SubtractPrimitiveLaw : Prop :=
  ∀ (z : RegName) (x y : Reg) (fl : Field) (s : State), fl.lo ≤ fl.hi → fl.hi < 14 →
    ∃ t, t = s.subInto z x y fl ∧
      ((t.reg z).num fl : Int) = ((x.num fl : Int) - (y.num fl : Int)) % 10 ^ (fl.hi - fl.lo + 1) ∧
      (t.cy = true ↔ x.num fl < y.num fl) ∧
      KeepsOutside fl (s.reg z) (t.reg z) ∧ t = { s.setReg z (t.reg z) with cy := t.cy }

/-- R137: `add(x,y,z)` followed by `subtract(z,y,z')` within the same range reproduces x there, whatever carry was before
either call. -/
def Obligations.AddThenSubtractReproduces : Prop :=
  ∀ (z z' : RegName) (x y : Reg) (fl : Field) (s : State) (carry carry' : Bool), fl.lo ≤ fl.hi → fl.hi < 14 →
    ∃ t u, t = State.addInto z x y fl { s with cy := carry } ∧
      u = State.subInto z' (t.reg z) y fl { t with cy := carry' } ∧
      ∀ i, fl.has i = true → (u.reg z').cell i = x.cell i

/-- R136: comparing a register with itself leaves carry as it was; comparing an all-zero range with zero leaves carry as it
was, and any single nonzero cell in the range sets it. -/
def Obligations.CompareEdges : Prop :=
  ∀ (r : Reg) (fl : Field) (s : State), fl.lo ≤ fl.hi → fl.hi < 14 →
    (s.compareGeField r r fl).cy = s.cy ∧
    ((∀ i, fl.has i = true → r.cell i = 0) → (s.compareZeroField r fl).cy = s.cy) ∧
    (∀ i, fl.has i = true → r.cell i ≠ 0 → (s.compareZeroField r fl).cy = true)

/-! ## Type C (R150 to R185) -/

/-- R164, R171, R178, R180: the additions put the sum of the fields into their destination and the carry out of the field into
CY; the carry is not added into the next cell. -/
def Obligations.AdditionsSumTheField : Prop :=
  ∀ (ws : WordSel) (s : State) (fl : Field), ws.field s.p = some fl →
    (∃ t, exec (.aAddBToA ws) s = .next t ∧ AddsInto .a (s.a.num fl) (s.b.num fl) fl s t) ∧
    (∃ t, exec (.aAddCToA ws) s = .next t ∧ AddsInto .a (s.a.num fl) (s.c.num fl) fl s t) ∧
    (∃ t, exec (.aAddCToC ws) s = .next t ∧ AddsInto .c (s.a.num fl) (s.c.num fl) fl s t) ∧
    (∃ t, exec (.cAddCToC ws) s = .next t ∧ AddsInto .c (s.c.num fl) (s.c.num fl) fl s t)

/-- R165, R181: the increments add 1 to the field; carry exactly when the field was all nines. -/
def Obligations.IncrementsAddOne : Prop :=
  ∀ (ws : WordSel) (s : State) (fl : Field), ws.field s.p = some fl →
    (∃ t, exec (.incA ws) s = .next t ∧ AddsInto .a (s.a.num fl) 1 fl s t ∧
      (t.cy = true ↔ ∀ i, fl.has i = true → s.a.cell i = 9)) ∧
    (∃ t, exec (.incC ws) s = .next t ∧ AddsInto .c (s.c.num fl) 1 fl s t ∧
      (t.cy = true ↔ ∀ i, fl.has i = true → s.c.cell i = 9))

/-- R160, R174, R176: the subtractions put the difference of the fields, the ten's complement where it is negative, into their
destination, and the borrow into CY. -/
def Obligations.SubtractionsTakeTheField : Prop :=
  ∀ (ws : WordSel) (s : State) (fl : Field), ws.field s.p = some fl →
    (∃ t, exec (.aSubBToA ws) s = .next t ∧ SubtractsInto .a (s.a.num fl) (s.b.num fl) fl s t) ∧
    (∃ t, exec (.aSubCToA ws) s = .next t ∧ SubtractsInto .a (s.a.num fl) (s.c.num fl) fl s t) ∧
    (∃ t, exec (.aSubCToC ws) s = .next t ∧ SubtractsInto .c (s.a.num fl) (s.c.num fl) fl s t)

/-- R161, R177: the decrements take 1 from the field; a zero field becomes all nines with carry, and only a zero field gives
carry. -/
def Obligations.DecrementsTakeOne : Prop :=
  ∀ (ws : WordSel) (s : State) (fl : Field), ws.field s.p = some fl →
    (∃ t, exec (.decA ws) s = .next t ∧ SubtractsInto .a (s.a.num fl) 1 fl s t ∧
      (t.cy = true ↔ s.a.num fl = 0) ∧ (t.cy = true → ∀ i, fl.has i = true → t.a.cell i = 9)) ∧
    (∃ t, exec (.decC ws) s = .next t ∧ SubtractsInto .c (s.c.num fl) 1 fl s t ∧
      (t.cy = true ↔ s.c.num fl = 0) ∧ (t.cy = true → ∀ i, fl.has i = true → t.c.cell i = 9))

/-- R155: `NEG_C` makes the ten's complement of the field, carry exactly when the field was nonzero. -/
def Obligations.NegCMakesTheTensComplement : Prop :=
  ∀ (ws : WordSel) (s : State) (fl : Field), ws.field s.p = some fl →
    ∃ t, exec (.negC ws) s = .next t ∧
      t.c.num fl = (10 ^ fl.width - s.c.num fl) % 10 ^ fl.width ∧ t.cy = decide (s.c.num fl ≠ 0) ∧
      WritesFieldAndCarry .c fl s t

/-- R157: `NEG_C_M1` makes the nine's complement of the field, 0 - C - 1, and applied twice restores C. That CY is 1 is the
spec's decision D8 from general knowledge (log entry 11). -/
def Obligations.NegCM1MakesTheNinesComplement : Prop :=
  ∀ (ws : WordSel) (s : State) (fl : Field), ws.field s.p = some fl →
    ∃ t u, exec (.negCM1 ws) s = .next t ∧
      (∀ i, fl.has i = true → (t.c.cell i).val = 9 - (s.c.cell i).val) ∧
      t.c.num fl + s.c.num fl + 1 = 10 ^ fl.width ∧ t.cy = true ∧ WritesFieldAndCarry .c fl s t ∧
      exec (.negCM1 ws) t = .next u ∧ u.c = s.c

/-- R152, R166 (and R130): the comparisons set CY exactly when A is less in the field, and otherwise leave it as step 4 left
it; no register is written. -/
def Obligations.CompareGeTestsTheField : Prop :=
  ∀ (ws : WordSel) (s : State) (fl : Field), ws.field s.p = some fl →
    (∃ t, exec (.ifAGeC ws) s = .next t ∧ WritesCarry (s.cy || decide (s.a.num fl < s.c.num fl)) s t) ∧
    (∃ t, exec (.ifAGeB ws) s = .next t ∧ WritesCarry (s.cy || decide (s.a.num fl < s.b.num fl)) s t)

/-- R153, R169: the tests for at least 1 set CY exactly when the field is zero, and otherwise leave it as step 4 left it
(their composition is the spec's D25, the flag the same under any). -/
def Obligations.AtLeastOneTestsTheField : Prop :=
  ∀ (ws : WordSel) (s : State) (fl : Field), ws.field s.p = some fl →
    (∃ t, exec (.ifCGe1 ws) s = .next t ∧ WritesCarry (s.cy || decide (s.c.num fl = 0)) s t) ∧
    (∃ t, exec (.ifAGe1 ws) s = .next t ∧ WritesCarry (s.cy || decide (s.a.num fl = 0)) s t)

/-- R150, R163 (and R131): the tests for zero set CY exactly when the field is nonzero, and otherwise leave it as step 4 left
it. -/
def Obligations.ZeroTestsTheField : Prop :=
  ∀ (ws : WordSel) (s : State) (fl : Field), ws.field s.p = some fl →
    (∃ t, exec (.ifBEq0 ws) s = .next t ∧ WritesCarry (s.cy || decide (s.b.num fl ≠ 0)) s t) ∧
    (∃ t, exec (.ifCEq0 ws) s = .next t ∧ WritesCarry (s.cy || decide (s.c.num fl ≠ 0)) s t)

/-- R151, R156, R173 (and R133): the clears make every cell of the field 0 and change nothing else. -/
def Obligations.ClearsZeroTheField : Prop :=
  ∀ (ws : WordSel) (s : State) (fl : Field), ws.field s.p = some fl →
    (∃ t, exec (.clrA ws) s = .next t ∧ WritesField .a fl s t ∧ ∀ i, fl.has i = true → t.a.cell i = 0) ∧
    (∃ t, exec (.clrB ws) s = .next t ∧ WritesField .b fl s t ∧ ∀ i, fl.has i = true → t.b.cell i = 0) ∧
    (∃ t, exec (.clrC ws) s = .next t ∧ WritesField .c fl s t ∧ ∀ i, fl.has i = true → t.c.cell i = 0)

/-- R154, R159, R162 (and R125): the copies give every cell of the field the source's cell and change nothing else, the source
included. -/
def Obligations.CopiesMoveTheField : Prop :=
  ∀ (ws : WordSel) (s : State) (fl : Field), ws.field s.p = some fl →
    (∃ t, exec (.bToC ws) s = .next t ∧ WritesField .c fl s t ∧ ∀ i, fl.has i = true → t.c.cell i = s.b.cell i) ∧
    (∃ t, exec (.aToB ws) s = .next t ∧ WritesField .b fl s t ∧ ∀ i, fl.has i = true → t.b.cell i = s.a.cell i) ∧
    (∃ t, exec (.cToA ws) s = .next t ∧ WritesField .a fl s t ∧ ∀ i, fl.has i = true → t.a.cell i = s.c.cell i)

/-- R167, R175, R179 (and R126): the exchanges swap the cells of the field in the two registers, keep every other cell of both,
and change nothing else. -/
def Obligations.ExchangesSwapTheField : Prop :=
  ∀ (ws : WordSel) (s : State) (fl : Field), ws.field s.p = some fl →
    (∃ t, exec (.bExchC ws) s = .next t ∧ AgreeButWs t { s with b := t.b, c := t.c } ∧
      KeepsOutside fl s.b t.b ∧ KeepsOutside fl s.c t.c ∧
      ∀ i, fl.has i = true → t.b.cell i = s.c.cell i ∧ t.c.cell i = s.b.cell i) ∧
    (∃ t, exec (.aExchB ws) s = .next t ∧ AgreeButWs t { s with a := t.a, b := t.b } ∧
      KeepsOutside fl s.a t.a ∧ KeepsOutside fl s.b t.b ∧
      ∀ i, fl.has i = true → t.a.cell i = s.b.cell i ∧ t.b.cell i = s.a.cell i) ∧
    (∃ t, exec (.aExchC ws) s = .next t ∧ AgreeButWs t { s with a := t.a, c := t.c } ∧
      KeepsOutside fl s.a t.a ∧ KeepsOutside fl s.c t.c ∧
      ∀ i, fl.has i = true → t.a.cell i = s.c.cell i ∧ t.c.cell i = s.a.cell i)

/-- R158 (and R132): `SHL_A` multiplies the field by ten, losing its highest digit. That left is toward cell 13 is the spec's
decision D12 (log entry 14). -/
def Obligations.LeftShiftMultipliesByTen : Prop :=
  ∀ (ws : WordSel) (s : State) (fl : Field), ws.field s.p = some fl →
    ∃ t, exec (.shlA ws) s = .next t ∧ t.a.num fl = (10 * s.a.num fl) % 10 ^ fl.width ∧ WritesField .a fl s t

/-- R168, R170, R172 (and R132): the right shifts divide the field by ten, losing its lowest digit (D12; log entry 14). -/
def Obligations.RightShiftsDivideByTen : Prop :=
  ∀ (ws : WordSel) (s : State) (fl : Field), ws.field s.p = some fl →
    (∃ t, exec (.shrA ws) s = .next t ∧ t.a.num fl = s.a.num fl / 10 ∧ WritesField .a fl s t) ∧
    (∃ t, exec (.shrB ws) s = .next t ∧ t.b.num fl = s.b.num fl / 10 ∧ WritesField .b fl s t) ∧
    (∃ t, exec (.shrC ws) s = .next t ∧ t.c.num fl = s.c.num fl / 10 ∧ WritesField .c fl s t)

/-- R183 and R184: a type-C instruction whose field has a range writes WS, and of the rest at most A, B and C, in cells of the
field, and CY; where the range has no meaning it ends in the model fault (D6; log entry 7). -/
def Obligations.TypeCTouchesOnlyTheField : Prop :=
  ∀ (i : Instr) (ws : WordSel) (s : State), i.wordSel = some ws →
    match ws.field s.p with
    | none => exec i s = .fault .pointerOutOfRange
    | some fl => ∃ t, exec i s = .next t ∧
        t = { s with a := t.a, b := t.b, c := t.c, cy := t.cy, ws := ws } ∧
        KeepsOutside fl s.a t.a ∧ KeepsOutside fl s.b t.b ∧ KeepsOutside fl s.c t.c

/-! ## Status and pointer classes -/

/-- R200, R202, R203: set and reset write the one flag they name, clear writes all twelve, and nothing else changes. -/
def Obligations.StatusInstructionsWriteTheirFlags : Prop :=
  ∀ (s : State) (n : BitVec 4), n.toNat < 12 →
    (∃ t, exec (.setS n) s = .next t ∧ AgreeButWs t { s with status := t.status } ∧
      ∀ k : BitVec 4, flagAt t.status k = if k = n then true else flagAt s.status k) ∧
    (∃ t, exec (.resetS n) s = .next t ∧ AgreeButWs t { s with status := t.status } ∧
      ∀ k : BitVec 4, flagAt t.status k = if k = n then false else flagAt s.status k) ∧
    (∃ t, exec .clearStatus s = .next t ∧ AgreeButWs t { s with status := t.status } ∧
      ∀ k : BitVec 4, flagAt t.status k = false)

/-- R201: `TEST_S n` sets CY when flag `n` is 1, otherwise leaves it as step 4 left it, and changes nothing else. -/
def Obligations.StatusTestCopiesTheFlag : Prop :=
  ∀ (s : State) (n : BitVec 4), n.toNat < 12 →
    ∃ t, exec (.testS n) s = .next t ∧ WritesCarry (if flagAt s.status n = true then true else s.cy) s t

/-- R88, R200 to R202, R204: with a flag number of 12..15 the three instructions raise the undefined opcode of the status class
and change no flag (the decoder gives no such term; log entry 17). -/
def Obligations.BadFlagNumberRaisesUndefinedOpcode : Prop :=
  ∀ (s : State) (n : BitVec 4), 12 ≤ n.toNat →
    exec (.setS n) s = .next (s.raiseUndefinedOpcode ⟨.status, n ++ (0b0001 : BitVec 4)⟩) ∧
    exec (.testS n) s = .next (s.raiseUndefinedOpcode ⟨.status, n ++ (0b0101 : BitVec 4)⟩) ∧
    exec (.resetS n) s = .next (s.raiseUndefinedOpcode ⟨.status, n ++ (0b1001 : BitVec 4)⟩)

/-- R210, R211, R213: the pointer is loaded with any of 0..15, or counted down or up modulo 16; nothing else changes. -/
def Obligations.PointerInstructionsWriteP : Prop :=
  ∀ (s : State) (n : BitVec 4),
    (∃ t, exec (.setP n) s = .next t ∧ AgreeButWs t { s with p := n }) ∧
    (∃ t, exec .decP s = .next t ∧ AgreeButWs t { s with p := t.p } ∧ t.p.toNat = (s.p.toNat + 15) % 16) ∧
    (∃ t, exec .incP s = .next t ∧ AgreeButWs t { s with p := t.p } ∧ t.p.toNat = (s.p.toNat + 1) % 16)

/-- R212: `TEST_P n` sets CY when the pointer equals `n` and otherwise leaves it as step 4 left it. The sense is the spec's from
general knowledge (D2; log entry 14). -/
def Obligations.PointerTestComparesP : Prop :=
  ∀ (s : State) (n : BitVec 4),
    ∃ t, exec (.testP n) s = .next t ∧ WritesCarry (if s.p = n then true else s.cy) s t

/-! ## Data entry and display -/

/-- R220, R283: `LOAD_CONST n` writes the digit into the cell of C at the pointer and counts the pointer down modulo 16; a
constant above 9, and after it a pointer of 14 or 15, ends in its model fault (the faults are the spec's decisions D6, D7; log
entries 7 and 8). -/
def Obligations.LoadConstWritesTheCellAtP : Prop :=
  ∀ (s : State) (n : BitVec 4),
    (n.toNat < 10 → s.p.toNat < 14 →
      ∃ t, exec (.loadConst n) s = .next t ∧ AgreeButWs t { s with c := t.c, p := t.p } ∧
        (t.c.cell s.p.toNat).val = n.toNat ∧ (∀ i, i < 14 → i ≠ s.p.toNat → t.c.cell i = s.c.cell i) ∧
        t.p.toNat = (s.p.toNat + 15) % 16) ∧
    (10 ≤ n.toNat → exec (.loadConst n) s = .fault .nonBcdConstant) ∧
    (n.toNat < 10 → 14 ≤ s.p.toNat → exec (.loadConst n) s = .fault .pointerOutOfRange)

/-- R222, R226: the display flag is inverted or cleared, and nothing else changes. -/
def Obligations.DisplayInstructionsWriteDisp : Prop :=
  ∀ s : State,
    (∃ t, exec .displayToggle s = .next t ∧ AgreeButWs t { s with disp := !s.disp }) ∧
    (∃ t, exec .displayOff s = .next t ∧ AgreeButWs t { s with disp := false })

/-- R223 to R225, R227 to R229: the whole-register transfers between C, M, A and the stack, and the clear of the seven
registers; nothing else changes. Which register receives which is the spec's from general knowledge (D27, D29; log entry
14). -/
def Obligations.WholeRegisterTransfers : Prop :=
  ∀ s : State,
    (∃ t, exec .cExchM s = .next t ∧ AgreeButWs t { s with c := s.m, m := s.c }) ∧
    (∃ t, exec .mToC s = .next t ∧ AgreeButWs t { s with c := s.m }) ∧
    (∃ t, exec .cToStack s = .next t ∧ AgreeButWs t { s with d := s.c, e := s.d, f := s.e }) ∧
    (∃ t, exec .stackToA s = .next t ∧ AgreeButWs t { s with a := s.d, d := s.e, e := s.f }) ∧
    (∃ t, exec .downRotate s = .next t ∧ AgreeButWs t { s with c := s.d, d := s.e, e := s.f, f := s.c }) ∧
    (∃ t, exec .clearRegs s = .next t ∧
      AgreeButWs t { s with a := t.a, b := t.b, c := t.c, d := t.d, e := t.e, f := t.f, m := t.m } ∧
      ∀ (r : RegName) (i : Nat), i < 14 → (t.reg r).cell i = 0)

/-- R64 (a), R230, R245: with a bank of 0..9, `C_TO_DATA` writes C to that location and no other, `DATA_TO_C` reads the location
into C, and a read after a write with the same bank gives what was written, whatever C holds meanwhile. -/
def Obligations.AuxiliaryStorageHoldsWhatWasWritten : Prop :=
  ∀ (s : State) (x : Reg), s.bank.toNat < 10 →
    (∃ t, exec .dataToC s = .next t ∧ AgreeButWs t { s with c := t.c } ∧ s.aux[s.bank.toNat]? = some t.c) ∧
    (∃ t u, exec .cToData s = .next t ∧ AgreeButWs t { s with aux := t.aux } ∧ t.aux[s.bank.toNat]? = some s.c ∧
      (∀ k, k < 10 → k ≠ s.bank.toNat → t.aux[k]? = s.aux[k]?) ∧
      exec .dataToC { t with c := x } = .next u ∧ u.c = s.c)

/-- R58: with a bank of 10..15 both accesses complete successfully (the success that the common steps put into `result`
stays; log entry 6) and change nothing. -/
def Obligations.BankOutOfRangeIsNoOp : Prop :=
  ∀ s : State, 10 ≤ s.bank.toNat →
    (∃ t, exec .dataToC s = .next t ∧ AgreeButWs t s ∧ (s.result = .success → t.stepCode = 0)) ∧
    (∃ t, exec .cToData s = .next t ∧ AgreeButWs t s ∧ (s.result = .success → t.stepCode = 0))

/-! ## ROM select, call, branch -/

/-- R240 to R243: `NOP` does nothing, `SEL_ROM` replaces the page, `RETURN` and `KEYS_TO_ROM` replace the offset by RET and by
KEY; nothing else changes (`NOP`'s existence and the independence of the key-down flag are the spec's, G11, D28; log entries 9
and 14). -/
def Obligations.RomSelectInstructionsWritePc : Prop :=
  ∀ (s : State) (g : BitVec 3),
    (∃ t, exec .nop s = .next t ∧ AgreeButWs t s) ∧
    (∃ t, exec (.selRom g) s = .next t ∧ AgreeButWs t { s with pc := t.pc } ∧ pageOf t.pc = g ∧ offOf t.pc = offOf s.pc) ∧
    (∃ t, exec .ret s = .next t ∧ AgreeButWs t { s with pc := t.pc } ∧ pageOf t.pc = pageOf s.pc ∧ offOf t.pc = s.ret) ∧
    (∃ t, exec .keysToRom s = .next t ∧ AgreeButWs t { s with pc := t.pc } ∧ pageOf t.pc = pageOf s.pc ∧
      offOf t.pc = s.key)

/-- R244: `C_TO_ADDR` puts the digit of cell 12 of C into BANK, so BANK is a bank after it. The operation and the cell are the
spec's from general knowledge (D9; log entry 12). -/
def Obligations.BankIsLoadedFromCellTwelve : Prop :=
  ∀ s : State, ∃ t, exec .cToAddr s = .next t ∧ AgreeButWs t { s with bank := t.bank } ∧
    t.bank.toNat = (s.c.cell 12).val ∧ t.bank.toNat < 10

/-- R260: `JSB t` is `I = t*4 + 1`; it saves the offset it finds, which step 2 has advanced, sets the offset to its target,
keeps the page, changes nothing else and returns 0: the status is the success that the
common steps put into `result` (log entry 6). -/
def Obligations.JsbSavesTheOffsetAndJumps : Prop :=
  ∀ (s : State) (target : BitVec 8), (encode (.jsb target)).toNat = target.toNat * 4 + 1 ∧
    ∃ t, exec (.jsb target) s = .next t ∧ AgreeButWs t { s with pc := t.pc, ret := offOf s.pc } ∧
      pageOf t.pc = pageOf s.pc ∧ offOf t.pc = target ∧ (s.result = .success → t.stepCode = 0)

/-- R261: `BRANCH t` is `I = t*4 + 3`; with carry clear it sets the offset to its target, with carry set it keeps the advanced
one; then carry is clear; the page and everything else stay, and it returns 0: the status is
the success that the common steps put into `result` (log entry 6). -/
def Obligations.BranchTransfersOnCarryClear : Prop :=
  ∀ (s : State) (target : BitVec 8), (encode (.branch target)).toNat = target.toNat * 4 + 3 ∧
    ∃ t, exec (.branch target) s = .next t ∧ AgreeButWs t { s with pc := t.pc, cy := false } ∧
      pageOf t.pc = pageOf s.pc ∧ offOf t.pc = (if s.cy = false then target else offOf s.pc) ∧
      (s.result = .success → t.stepCode = 0)

/-! ## Reset and the caller's operations -/

/-- R301, R303: what every field of the record holds after `Reset`, and that the instruction memory is as it was. -/
def Obligations.ResetZeroesTheRecord : Prop :=
  ∀ s : State, ∃ t, t = s.hostReset ∧
    (∀ (r : RegName) (i : Nat), i < 14 → (t.reg r).cell i = 0) ∧
    (∀ b, b < 10 → ∃ x, t.aux[b]? = some x ∧ ∀ i, i < 14 → x.cell i = 0) ∧
    t.pc = 0 ∧ t.status = 0 ∧ t.ret = 0 ∧ t.p = 0 ∧ t.key = 0 ∧ t.kdn = false ∧ t.bank = 0 ∧ t.cy = false ∧
    t.ws.toBits = 0 ∧ t.disp = false ∧ t.rom = s.rom

/-- R108: `key_down(code)` and `key_up()` act on KEY and KDN only; a second `key_down` replaces the code, and `key_up` keeps
it. -/
def Obligations.KeyOperationsActOnTheLatch : Prop :=
  ∀ (s : State) (code other : BitVec 8),
    s.keyDown code = { s with key := code, kdn := true } ∧
    (s.keyDown other).keyDown code = s.keyDown code ∧
    s.keyUp = { s with kdn := false } ∧ (s.kdn = false → s.keyUp = s)
end

