-- ==== Sys2Proof/Laws/Memory.lean ====
section
/-!
SUPPORT. The instruction memory: a read after a write, and the canonical form, which every operation keeps.
-/

namespace Sys2Proof.Machine

/-- A list whose addresses all lie above an address does not name it. -/
theorem Memory.read_below (mem : Memory) (lo a : Nat) (h : mem.wfFrom lo = true) (ha : a < lo) :
    mem.read a = Config.romDefault := by
  induction mem generalizing lo with
  | nil => rfl
  | cons e rest ih =>
    simp only [Memory.wfFrom, Bool.and_eq_true, decide_eq_true_eq] at h
    obtain ⟨⟨⟨hlo, -⟩, -⟩, hrest⟩ := h
    rw [Memory.read, if_neg (by omega)]
    exact ih (e.1 + 1) hrest (by omega)

/-- Reading after a write gives the written word at its address and what was there anywhere else. -/
theorem Memory.read_write (mem : Memory) (a b : Nat) (w : Word) (lo : Nat) (h : mem.wfFrom lo = true) :
    (mem.write a w).read b = if b = a then w else mem.read b := by
  induction mem generalizing lo with
  | nil => by_cases hw : w = Config.romDefault <;> by_cases hb : b = a <;> simp [Memory.write, Memory.read, hw, hb]
  | cons e rest ih =>
    simp only [Memory.wfFrom, Bool.and_eq_true, decide_eq_true_eq] at h
    obtain ⟨-, hrest⟩ := h
    have hread : ∀ c, c ≤ e.1 → Memory.read rest c = Config.romDefault :=
      fun c hc => Memory.read_below rest (e.1 + 1) c hrest (by omega)
    unfold Memory.write
    split
    · split
      · rename_i ha hw
        by_cases hb : b = a
        · simp [Memory.read, hb, hw, Nat.ne_of_lt ha, hread a (by omega)]
        · simp [Memory.read, hb]
      · simp [Memory.read]
    · split
      · rename_i hae
        subst hae
        split
        · rename_i hw
          by_cases hb : b = e.1
          · simp [hb, hw, hread e.1 (by omega)]
          · simp [Memory.read, hb]
        · by_cases hb : b = e.1 <;> simp [Memory.read, hb]
      · rename_i hne
        by_cases hb : b = e.1
        · have : b ≠ a := by omega
          simp [Memory.read, hb]
          intro h; omega
        · simp only [Memory.read, if_neg hb]
          exact ih (e.1 + 1) hrest

/-- A write to an address of the memory keeps the canonical form. -/
theorem Memory.wfFrom_write (mem : Memory) (a : Nat) (w : Word) (lo : Nat) (h : mem.wfFrom lo = true) (hlo : lo ≤ a)
    (ha : a < Config.romWords) : (mem.write a w).wfFrom lo = true := by
  induction mem generalizing lo with
  | nil => by_cases hw : w = Config.romDefault <;> simp [Memory.write, Memory.wfFrom, hw, hlo, ha]
  | cons e rest ih =>
    have h' := h
    simp only [Memory.wfFrom, Bool.and_eq_true, decide_eq_true_eq] at h'
    obtain ⟨⟨⟨he, hb⟩, hd⟩, hrest⟩ := h'
    have weaken : ∀ (m : Memory) (l k : Nat), k ≤ l → m.wfFrom l = true → m.wfFrom k = true := by
      intro m l k hk hm
      cases m with
      | nil => rfl
      | cons x xs =>
        simp only [Memory.wfFrom, Bool.and_eq_true, decide_eq_true_eq] at hm ⊢
        exact ⟨⟨⟨by omega, hm.1.1.2⟩, hm.1.2⟩, hm.2⟩
    unfold Memory.write
    split
    · split
      · exact h
      · rename_i hae hw
        simp [Memory.wfFrom, hlo, ha, hw, hb, hrest, Nat.succ_le_of_lt hae]
        simpa using hd
    · split
      · rename_i hae
        split
        · exact weaken rest (e.1 + 1) lo (by omega) hrest
        · rename_i hw
          simp [Memory.wfFrom, hlo, ha, hw]
          rw [hae]
          exact hrest
      · simp only [Memory.wfFrom, Bool.and_eq_true, decide_eq_true_eq]
        exact ⟨⟨⟨he, hb⟩, hd⟩, ih (e.1 + 1) hrest (by omega)⟩

/-- The one operation that writes the instruction memory keeps its canonical form. -/
theorem State.placeWord_wf (s : State) (w : Word) (h : Memory.wf s.rom = true) : Memory.wf (s.placeWord w).rom = true :=
  Memory.wfFrom_write s.rom s.pc.toNat w 0 h (Nat.zero_le _) (by have := s.pc.isLt; simp only [Config.romWords]; omega)

/-- The placed word is the one the next step fetches. -/
theorem State.fetch_placeWord (s : State) (w : Word) (h : Memory.wf s.rom = true) : (s.placeWord w).fetch = w := by
  show (Memory.write s.rom s.pc.toNat w).read s.pc.toNat = w
  rw [Memory.read_write s.rom _ _ w 0 h, if_pos rfl]

/-- The instruction memory after reset has the canonical form. -/
theorem State.reset_rom_wf : Memory.wf State.reset.rom = true := rfl

end Sys2Proof.Machine
end

