-- ==== Sys2Proof/Laws/Operands.lean ====
section
/-!
SUPPORT. What reading a cell of a built register gives, the bounds of a field's number, and the laws of the flags and of the
program counter's halves.
-/

namespace Sys2Proof

/-! ## Cells -/

@[simp] theorem Reg.cell_tab (g : Nat → Digit) (i : Nat) : (Reg.tab g).cell i = if i < 14 then g i else 0 := by
  unfold Reg.cell
  split
  · interval_cases i <;> rfl
  · rfl

theorem Reg.cell_of_le (r : Reg) (i : Nat) (h : 14 ≤ i) : r.cell i = 0 := by
  simp [Reg.cell, Nat.not_lt.mpr h]

/-- Two registers with the same 14 cells are equal. -/
theorem Reg.ext_cell (r r' : Reg) (h : ∀ i, i < 14 → r.cell i = r'.cell i) : r = r' := by
  apply Vector.ext
  intro i hi
  simpa [Reg.cell, hi] using h i hi

@[simp] theorem Reg.cell_zero (i : Nat) : Reg.zero.cell i = 0 := by
  simp [Reg.cell, Reg.zero]

/-- The whole of what writing a field does to a register (R124). -/
theorem Reg.cell_onField (r : Reg) (fl : Field) (g : Nat → Digit) (i : Nat) (h : i < 14) :
    (r.onField fl g).cell i = if fl.has i then g i else r.cell i := by
  simp [Reg.onField, h]

theorem Reg.cell_onField_outside (r : Reg) (fl : Field) (g : Nat → Digit) (i : Nat) (h : fl.has i = false) :
    (r.onField fl g).cell i = r.cell i := by
  by_cases hi : i < 14
  · simp [Reg.cell_onField, hi, h]
  · rw [Reg.cell_of_le _ _ (by omega), Reg.cell_of_le _ _ (by omega)]

theorem Field.has_iff (fl : Field) (i : Nat) : fl.has i = true ↔ fl.lo ≤ i ∧ i ≤ fl.hi := by
  simp [Field.has]

@[simp] theorem Digit.val_ofNat (n : Nat) : (Digit.ofNat n).val = n % 10 := by
  simp [Digit.ofNat]

/-! ## The number a field spells -/

theorem Reg.numFrom_congr (r r' : Reg) (lo n : Nat) (h : ∀ i, lo ≤ i → i < lo + n → r.cell i = r'.cell i) :
    r.numFrom lo n = r'.numFrom lo n := by
  induction n with
  | zero => rfl
  | succ n ih =>
    simp only [Reg.numFrom]
    rw [ih fun i hi hn => h i hi (by omega), h (lo + n) (by omega) (by omega)]

/-- `n` digits spell a number below `10 ^ n`. -/
theorem Reg.numFrom_lt (r : Reg) (lo n : Nat) : r.numFrom lo n < 10 ^ n := by
  induction n with
  | zero => simp [Reg.numFrom]
  | succ n ih =>
    have hd : (r.cell (lo + n)).val ≤ 9 := by omega
    have := Nat.mul_le_mul_right (10 ^ n) hd
    simp only [Reg.numFrom, Nat.pow_succ]
    omega

theorem Reg.num_lt (r : Reg) (fl : Field) : r.num fl < 10 ^ fl.width := r.numFrom_lt fl.lo fl.width

@[simp] theorem Reg.numFrom_zero (lo n : Nat) : Reg.zero.numFrom lo n = 0 := by
  induction n with
  | zero => rfl
  | succ n ih => simp [Reg.numFrom, ih]

/-! ## Word-select -/

/-- A field comes from a pointer below 14 or from a mode that does not read the pointer, and stays in the register. -/
theorem WordSel.field_bounds (ws : WordSel) (p : BitVec 4) (fl : Field) (h : ws.field p = some fl) :
    fl.lo ≤ fl.hi ∧ fl.hi < 14 ∧ (ws = .p ∨ ws = .wp → p.toNat < 14) := by
  cases ws <;> simp [WordSel.field] at h <;>
    first
      | (obtain ⟨hp, rfl⟩ := h; simp; omega)
      | (subst h; simp)

/-! ## Flags and the program counter -/

/-- Writing a flag changes that flag and no other (R37). -/
theorem flagAt_setFlag (status : BitVec 12) (n k : BitVec 4) (v : Bool) (h : n.toNat < 12) :
    flagAt (setFlag status n v) k = if k = n then v else flagAt status k := by
  have key : k = n ↔ n.toNat = k.toNat := by rw [eq_comm, BitVec.toNat_inj]
  have below : status.getLsbD k.toNat = true → k.toNat < 12 := BitVec.lt_of_getLsbD
  cases v <;> by_cases hk : n.toNat = k.toNat <;> simp [flagAt, setFlag, BitVec.getLsbD_twoPow, key, hk]
  · exact below
  · omega

@[simp] theorem pageOf_addrOf (g : BitVec 3) (t : BitVec 8) : pageOf (addrOf g t) = g := by
  unfold pageOf addrOf
  exact BitVec.extractLsb'_append_eq_left

@[simp] theorem offOf_addrOf (g : BitVec 3) (t : BitVec 8) : offOf (addrOf g t) = t := by
  unfold offOf addrOf
  exact BitVec.extractLsb'_append_eq_right

theorem addrOf_pageOf_offOf (pc : BitVec 11) : addrOf (pageOf pc) (offOf pc) = pc := by
  revert pc; decide +kernel

end Sys2Proof
end

