-- ==== Sys2Proof/Laws/State.lean ====
section
/-!
SUPPORT. One lemma for each field and each named update of the state, all true by unfolding the update.
-/

namespace Sys2Proof.Machine

/-! ## setOff -/

@[simp] theorem State.setOff_a (s : State) (t : BitVec 8) : (s.setOff t).a = s.a := rfl
@[simp] theorem State.setOff_b (s : State) (t : BitVec 8) : (s.setOff t).b = s.b := rfl
@[simp] theorem State.setOff_c (s : State) (t : BitVec 8) : (s.setOff t).c = s.c := rfl
@[simp] theorem State.setOff_d (s : State) (t : BitVec 8) : (s.setOff t).d = s.d := rfl
@[simp] theorem State.setOff_e (s : State) (t : BitVec 8) : (s.setOff t).e = s.e := rfl
@[simp] theorem State.setOff_f (s : State) (t : BitVec 8) : (s.setOff t).f = s.f := rfl
@[simp] theorem State.setOff_m (s : State) (t : BitVec 8) : (s.setOff t).m = s.m := rfl
@[simp] theorem State.setOff_aux (s : State) (t : BitVec 8) : (s.setOff t).aux = s.aux := rfl
@[simp] theorem State.setOff_pc (s : State) (t : BitVec 8) : (s.setOff t).pc = addrOf (pageOf s.pc) t := rfl
@[simp] theorem State.setOff_status (s : State) (t : BitVec 8) : (s.setOff t).status = s.status := rfl
@[simp] theorem State.setOff_ret (s : State) (t : BitVec 8) : (s.setOff t).ret = s.ret := rfl
@[simp] theorem State.setOff_p (s : State) (t : BitVec 8) : (s.setOff t).p = s.p := rfl
@[simp] theorem State.setOff_key (s : State) (t : BitVec 8) : (s.setOff t).key = s.key := rfl
@[simp] theorem State.setOff_kdn (s : State) (t : BitVec 8) : (s.setOff t).kdn = s.kdn := rfl
@[simp] theorem State.setOff_bank (s : State) (t : BitVec 8) : (s.setOff t).bank = s.bank := rfl
@[simp] theorem State.setOff_cy (s : State) (t : BitVec 8) : (s.setOff t).cy = s.cy := rfl
@[simp] theorem State.setOff_ws (s : State) (t : BitVec 8) : (s.setOff t).ws = s.ws := rfl
@[simp] theorem State.setOff_disp (s : State) (t : BitVec 8) : (s.setOff t).disp = s.disp := rfl
@[simp] theorem State.setOff_rom (s : State) (t : BitVec 8) : (s.setOff t).rom = s.rom := rfl
@[simp] theorem State.setOff_result (s : State) (t : BitVec 8) : (s.setOff t).result = s.result := rfl
@[simp] theorem State.setOff_undefSeen (s : State) (t : BitVec 8) : (s.setOff t).undefSeen = s.undefSeen := rfl

/-! ## setPage -/

@[simp] theorem State.setPage_a (s : State) (g : BitVec 3) : (s.setPage g).a = s.a := rfl
@[simp] theorem State.setPage_b (s : State) (g : BitVec 3) : (s.setPage g).b = s.b := rfl
@[simp] theorem State.setPage_c (s : State) (g : BitVec 3) : (s.setPage g).c = s.c := rfl
@[simp] theorem State.setPage_d (s : State) (g : BitVec 3) : (s.setPage g).d = s.d := rfl
@[simp] theorem State.setPage_e (s : State) (g : BitVec 3) : (s.setPage g).e = s.e := rfl
@[simp] theorem State.setPage_f (s : State) (g : BitVec 3) : (s.setPage g).f = s.f := rfl
@[simp] theorem State.setPage_m (s : State) (g : BitVec 3) : (s.setPage g).m = s.m := rfl
@[simp] theorem State.setPage_aux (s : State) (g : BitVec 3) : (s.setPage g).aux = s.aux := rfl
@[simp] theorem State.setPage_pc (s : State) (g : BitVec 3) : (s.setPage g).pc = addrOf g (offOf s.pc) := rfl
@[simp] theorem State.setPage_status (s : State) (g : BitVec 3) : (s.setPage g).status = s.status := rfl
@[simp] theorem State.setPage_ret (s : State) (g : BitVec 3) : (s.setPage g).ret = s.ret := rfl
@[simp] theorem State.setPage_p (s : State) (g : BitVec 3) : (s.setPage g).p = s.p := rfl
@[simp] theorem State.setPage_key (s : State) (g : BitVec 3) : (s.setPage g).key = s.key := rfl
@[simp] theorem State.setPage_kdn (s : State) (g : BitVec 3) : (s.setPage g).kdn = s.kdn := rfl
@[simp] theorem State.setPage_bank (s : State) (g : BitVec 3) : (s.setPage g).bank = s.bank := rfl
@[simp] theorem State.setPage_cy (s : State) (g : BitVec 3) : (s.setPage g).cy = s.cy := rfl
@[simp] theorem State.setPage_ws (s : State) (g : BitVec 3) : (s.setPage g).ws = s.ws := rfl
@[simp] theorem State.setPage_disp (s : State) (g : BitVec 3) : (s.setPage g).disp = s.disp := rfl
@[simp] theorem State.setPage_rom (s : State) (g : BitVec 3) : (s.setPage g).rom = s.rom := rfl
@[simp] theorem State.setPage_result (s : State) (g : BitVec 3) : (s.setPage g).result = s.result := rfl
@[simp] theorem State.setPage_undefSeen (s : State) (g : BitVec 3) : (s.setPage g).undefSeen = s.undefSeen := rfl

/-! ## advance -/

@[simp] theorem State.advance_a (s : State) : (s.advance).a = s.a := rfl
@[simp] theorem State.advance_b (s : State) : (s.advance).b = s.b := rfl
@[simp] theorem State.advance_c (s : State) : (s.advance).c = s.c := rfl
@[simp] theorem State.advance_d (s : State) : (s.advance).d = s.d := rfl
@[simp] theorem State.advance_e (s : State) : (s.advance).e = s.e := rfl
@[simp] theorem State.advance_f (s : State) : (s.advance).f = s.f := rfl
@[simp] theorem State.advance_m (s : State) : (s.advance).m = s.m := rfl
@[simp] theorem State.advance_aux (s : State) : (s.advance).aux = s.aux := rfl
@[simp] theorem State.advance_pc (s : State) : (s.advance).pc = addrOf (pageOf s.pc) (offOf s.pc + 1) := rfl
@[simp] theorem State.advance_status (s : State) : (s.advance).status = s.status := rfl
@[simp] theorem State.advance_ret (s : State) : (s.advance).ret = s.ret := rfl
@[simp] theorem State.advance_p (s : State) : (s.advance).p = s.p := rfl
@[simp] theorem State.advance_key (s : State) : (s.advance).key = s.key := rfl
@[simp] theorem State.advance_kdn (s : State) : (s.advance).kdn = s.kdn := rfl
@[simp] theorem State.advance_bank (s : State) : (s.advance).bank = s.bank := rfl
@[simp] theorem State.advance_cy (s : State) : (s.advance).cy = s.cy := rfl
@[simp] theorem State.advance_ws (s : State) : (s.advance).ws = s.ws := rfl
@[simp] theorem State.advance_disp (s : State) : (s.advance).disp = s.disp := rfl
@[simp] theorem State.advance_rom (s : State) : (s.advance).rom = s.rom := rfl
@[simp] theorem State.advance_result (s : State) : (s.advance).result = s.result := rfl
@[simp] theorem State.advance_undefSeen (s : State) : (s.advance).undefSeen = s.undefSeen := rfl

/-! ## mergeKey -/

@[simp] theorem State.mergeKey_a (s : State) : (s.mergeKey).a = s.a := rfl
@[simp] theorem State.mergeKey_b (s : State) : (s.mergeKey).b = s.b := rfl
@[simp] theorem State.mergeKey_c (s : State) : (s.mergeKey).c = s.c := rfl
@[simp] theorem State.mergeKey_d (s : State) : (s.mergeKey).d = s.d := rfl
@[simp] theorem State.mergeKey_e (s : State) : (s.mergeKey).e = s.e := rfl
@[simp] theorem State.mergeKey_f (s : State) : (s.mergeKey).f = s.f := rfl
@[simp] theorem State.mergeKey_m (s : State) : (s.mergeKey).m = s.m := rfl
@[simp] theorem State.mergeKey_aux (s : State) : (s.mergeKey).aux = s.aux := rfl
@[simp] theorem State.mergeKey_pc (s : State) : (s.mergeKey).pc = s.pc := rfl
@[simp] theorem State.mergeKey_status (s : State) : (s.mergeKey).status = setFlag s.status 0 s.kdn := rfl
@[simp] theorem State.mergeKey_ret (s : State) : (s.mergeKey).ret = s.ret := rfl
@[simp] theorem State.mergeKey_p (s : State) : (s.mergeKey).p = s.p := rfl
@[simp] theorem State.mergeKey_key (s : State) : (s.mergeKey).key = s.key := rfl
@[simp] theorem State.mergeKey_kdn (s : State) : (s.mergeKey).kdn = s.kdn := rfl
@[simp] theorem State.mergeKey_bank (s : State) : (s.mergeKey).bank = s.bank := rfl
@[simp] theorem State.mergeKey_cy (s : State) : (s.mergeKey).cy = s.cy := rfl
@[simp] theorem State.mergeKey_ws (s : State) : (s.mergeKey).ws = s.ws := rfl
@[simp] theorem State.mergeKey_disp (s : State) : (s.mergeKey).disp = s.disp := rfl
@[simp] theorem State.mergeKey_rom (s : State) : (s.mergeKey).rom = s.rom := rfl
@[simp] theorem State.mergeKey_result (s : State) : (s.mergeKey).result = s.result := rfl
@[simp] theorem State.mergeKey_undefSeen (s : State) : (s.mergeKey).undefSeen = s.undefSeen := rfl

/-! ## clearCarry -/

@[simp] theorem State.clearCarry_a (s : State) (w : Word) : (s.clearCarry w).a = s.a := by unfold State.clearCarry; split <;> rfl
@[simp] theorem State.clearCarry_b (s : State) (w : Word) : (s.clearCarry w).b = s.b := by unfold State.clearCarry; split <;> rfl
@[simp] theorem State.clearCarry_c (s : State) (w : Word) : (s.clearCarry w).c = s.c := by unfold State.clearCarry; split <;> rfl
@[simp] theorem State.clearCarry_d (s : State) (w : Word) : (s.clearCarry w).d = s.d := by unfold State.clearCarry; split <;> rfl
@[simp] theorem State.clearCarry_e (s : State) (w : Word) : (s.clearCarry w).e = s.e := by unfold State.clearCarry; split <;> rfl
@[simp] theorem State.clearCarry_f (s : State) (w : Word) : (s.clearCarry w).f = s.f := by unfold State.clearCarry; split <;> rfl
@[simp] theorem State.clearCarry_m (s : State) (w : Word) : (s.clearCarry w).m = s.m := by unfold State.clearCarry; split <;> rfl
@[simp] theorem State.clearCarry_aux (s : State) (w : Word) : (s.clearCarry w).aux = s.aux := by unfold State.clearCarry; split <;> rfl
@[simp] theorem State.clearCarry_pc (s : State) (w : Word) : (s.clearCarry w).pc = s.pc := by unfold State.clearCarry; split <;> rfl
@[simp] theorem State.clearCarry_status (s : State) (w : Word) : (s.clearCarry w).status = s.status := by unfold State.clearCarry; split <;> rfl
@[simp] theorem State.clearCarry_ret (s : State) (w : Word) : (s.clearCarry w).ret = s.ret := by unfold State.clearCarry; split <;> rfl
@[simp] theorem State.clearCarry_p (s : State) (w : Word) : (s.clearCarry w).p = s.p := by unfold State.clearCarry; split <;> rfl
@[simp] theorem State.clearCarry_key (s : State) (w : Word) : (s.clearCarry w).key = s.key := by unfold State.clearCarry; split <;> rfl
@[simp] theorem State.clearCarry_kdn (s : State) (w : Word) : (s.clearCarry w).kdn = s.kdn := by unfold State.clearCarry; split <;> rfl
@[simp] theorem State.clearCarry_bank (s : State) (w : Word) : (s.clearCarry w).bank = s.bank := by unfold State.clearCarry; split <;> rfl
@[simp] theorem State.clearCarry_cy (s : State) (w : Word) : (s.clearCarry w).cy = (if tagOf w = 3 then s.cy else false) := by
  unfold State.clearCarry; split <;> rfl
@[simp] theorem State.clearCarry_ws (s : State) (w : Word) : (s.clearCarry w).ws = s.ws := by unfold State.clearCarry; split <;> rfl
@[simp] theorem State.clearCarry_disp (s : State) (w : Word) : (s.clearCarry w).disp = s.disp := by unfold State.clearCarry; split <;> rfl
@[simp] theorem State.clearCarry_rom (s : State) (w : Word) : (s.clearCarry w).rom = s.rom := by unfold State.clearCarry; split <;> rfl
@[simp] theorem State.clearCarry_result (s : State) (w : Word) : (s.clearCarry w).result = s.result := by unfold State.clearCarry; split <;> rfl
@[simp] theorem State.clearCarry_undefSeen (s : State) (w : Word) : (s.clearCarry w).undefSeen = s.undefSeen := by unfold State.clearCarry; split <;> rfl

/-! ## beginCycle -/

@[simp] theorem State.beginCycle_a (s : State) (w : Word) : (s.beginCycle w).a = s.a := by simp [State.beginCycle]
@[simp] theorem State.beginCycle_b (s : State) (w : Word) : (s.beginCycle w).b = s.b := by simp [State.beginCycle]
@[simp] theorem State.beginCycle_c (s : State) (w : Word) : (s.beginCycle w).c = s.c := by simp [State.beginCycle]
@[simp] theorem State.beginCycle_d (s : State) (w : Word) : (s.beginCycle w).d = s.d := by simp [State.beginCycle]
@[simp] theorem State.beginCycle_e (s : State) (w : Word) : (s.beginCycle w).e = s.e := by simp [State.beginCycle]
@[simp] theorem State.beginCycle_f (s : State) (w : Word) : (s.beginCycle w).f = s.f := by simp [State.beginCycle]
@[simp] theorem State.beginCycle_m (s : State) (w : Word) : (s.beginCycle w).m = s.m := by simp [State.beginCycle]
@[simp] theorem State.beginCycle_aux (s : State) (w : Word) : (s.beginCycle w).aux = s.aux := by simp [State.beginCycle]
@[simp] theorem State.beginCycle_pc (s : State) (w : Word) : (s.beginCycle w).pc = addrOf (pageOf s.pc) (offOf s.pc + 1) := by simp [State.beginCycle]
@[simp] theorem State.beginCycle_status (s : State) (w : Word) : (s.beginCycle w).status = setFlag s.status 0 s.kdn := by simp [State.beginCycle]
@[simp] theorem State.beginCycle_ret (s : State) (w : Word) : (s.beginCycle w).ret = s.ret := by simp [State.beginCycle]
@[simp] theorem State.beginCycle_p (s : State) (w : Word) : (s.beginCycle w).p = s.p := by simp [State.beginCycle]
@[simp] theorem State.beginCycle_key (s : State) (w : Word) : (s.beginCycle w).key = s.key := by simp [State.beginCycle]
@[simp] theorem State.beginCycle_kdn (s : State) (w : Word) : (s.beginCycle w).kdn = s.kdn := by simp [State.beginCycle]
@[simp] theorem State.beginCycle_bank (s : State) (w : Word) : (s.beginCycle w).bank = s.bank := by simp [State.beginCycle]
@[simp] theorem State.beginCycle_cy (s : State) (w : Word) : (s.beginCycle w).cy = (if tagOf w = 3 then s.cy else false) := by simp [State.beginCycle]
@[simp] theorem State.beginCycle_ws (s : State) (w : Word) : (s.beginCycle w).ws = s.ws := by simp [State.beginCycle]
@[simp] theorem State.beginCycle_disp (s : State) (w : Word) : (s.beginCycle w).disp = s.disp := by simp [State.beginCycle]
@[simp] theorem State.beginCycle_rom (s : State) (w : Word) : (s.beginCycle w).rom = s.rom := by simp [State.beginCycle]
@[simp] theorem State.beginCycle_result (s : State) (w : Word) : (s.beginCycle w).result = .success := by simp [State.beginCycle]
@[simp] theorem State.beginCycle_undefSeen (s : State) (w : Word) : (s.beginCycle w).undefSeen = s.undefSeen := by simp [State.beginCycle]

/-! ## raiseUndefinedOpcode -/

@[simp] theorem State.raiseUndefinedOpcode_a (s : State) (u : UndefinedOpcode) : (s.raiseUndefinedOpcode u).a = s.a := rfl
@[simp] theorem State.raiseUndefinedOpcode_b (s : State) (u : UndefinedOpcode) : (s.raiseUndefinedOpcode u).b = s.b := rfl
@[simp] theorem State.raiseUndefinedOpcode_c (s : State) (u : UndefinedOpcode) : (s.raiseUndefinedOpcode u).c = s.c := rfl
@[simp] theorem State.raiseUndefinedOpcode_d (s : State) (u : UndefinedOpcode) : (s.raiseUndefinedOpcode u).d = s.d := rfl
@[simp] theorem State.raiseUndefinedOpcode_e (s : State) (u : UndefinedOpcode) : (s.raiseUndefinedOpcode u).e = s.e := rfl
@[simp] theorem State.raiseUndefinedOpcode_f (s : State) (u : UndefinedOpcode) : (s.raiseUndefinedOpcode u).f = s.f := rfl
@[simp] theorem State.raiseUndefinedOpcode_m (s : State) (u : UndefinedOpcode) : (s.raiseUndefinedOpcode u).m = s.m := rfl
@[simp] theorem State.raiseUndefinedOpcode_aux (s : State) (u : UndefinedOpcode) : (s.raiseUndefinedOpcode u).aux = s.aux := rfl
@[simp] theorem State.raiseUndefinedOpcode_pc (s : State) (u : UndefinedOpcode) : (s.raiseUndefinedOpcode u).pc = s.pc := rfl
@[simp] theorem State.raiseUndefinedOpcode_status (s : State) (u : UndefinedOpcode) : (s.raiseUndefinedOpcode u).status = s.status := rfl
@[simp] theorem State.raiseUndefinedOpcode_ret (s : State) (u : UndefinedOpcode) : (s.raiseUndefinedOpcode u).ret = s.ret := rfl
@[simp] theorem State.raiseUndefinedOpcode_p (s : State) (u : UndefinedOpcode) : (s.raiseUndefinedOpcode u).p = s.p := rfl
@[simp] theorem State.raiseUndefinedOpcode_key (s : State) (u : UndefinedOpcode) : (s.raiseUndefinedOpcode u).key = s.key := rfl
@[simp] theorem State.raiseUndefinedOpcode_kdn (s : State) (u : UndefinedOpcode) : (s.raiseUndefinedOpcode u).kdn = s.kdn := rfl
@[simp] theorem State.raiseUndefinedOpcode_bank (s : State) (u : UndefinedOpcode) : (s.raiseUndefinedOpcode u).bank = s.bank := rfl
@[simp] theorem State.raiseUndefinedOpcode_cy (s : State) (u : UndefinedOpcode) : (s.raiseUndefinedOpcode u).cy = s.cy := rfl
@[simp] theorem State.raiseUndefinedOpcode_ws (s : State) (u : UndefinedOpcode) : (s.raiseUndefinedOpcode u).ws = s.ws := rfl
@[simp] theorem State.raiseUndefinedOpcode_disp (s : State) (u : UndefinedOpcode) : (s.raiseUndefinedOpcode u).disp = s.disp := rfl
@[simp] theorem State.raiseUndefinedOpcode_rom (s : State) (u : UndefinedOpcode) : (s.raiseUndefinedOpcode u).rom = s.rom := rfl
@[simp] theorem State.raiseUndefinedOpcode_result (s : State) (u : UndefinedOpcode) : (s.raiseUndefinedOpcode u).result = .undefined u := rfl
@[simp] theorem State.raiseUndefinedOpcode_undefSeen (s : State) (u : UndefinedOpcode) : (s.raiseUndefinedOpcode u).undefSeen = (s.undefSeen <|> some u) := rfl

/-! ## setReg -/

@[simp] theorem State.setReg_a (s : State) (v : Reg) : (s.setReg .a v).a = v := rfl
@[simp] theorem State.setReg_b (s : State) (v : Reg) : (s.setReg .b v).b = v := rfl
@[simp] theorem State.setReg_c (s : State) (v : Reg) : (s.setReg .c v).c = v := rfl
@[simp] theorem State.setReg_d (s : State) (v : Reg) : (s.setReg .d v).d = v := rfl
@[simp] theorem State.setReg_e (s : State) (v : Reg) : (s.setReg .e v).e = v := rfl
@[simp] theorem State.setReg_f (s : State) (v : Reg) : (s.setReg .f v).f = v := rfl
@[simp] theorem State.setReg_m (s : State) (v : Reg) : (s.setReg .m v).m = v := rfl
@[simp] theorem State.setReg_aux (s : State) (n : RegName) (v : Reg) : (s.setReg n v).aux = s.aux := by cases n <;> rfl
@[simp] theorem State.setReg_pc (s : State) (n : RegName) (v : Reg) : (s.setReg n v).pc = s.pc := by cases n <;> rfl
@[simp] theorem State.setReg_status (s : State) (n : RegName) (v : Reg) : (s.setReg n v).status = s.status := by cases n <;> rfl
@[simp] theorem State.setReg_ret (s : State) (n : RegName) (v : Reg) : (s.setReg n v).ret = s.ret := by cases n <;> rfl
@[simp] theorem State.setReg_p (s : State) (n : RegName) (v : Reg) : (s.setReg n v).p = s.p := by cases n <;> rfl
@[simp] theorem State.setReg_key (s : State) (n : RegName) (v : Reg) : (s.setReg n v).key = s.key := by cases n <;> rfl
@[simp] theorem State.setReg_kdn (s : State) (n : RegName) (v : Reg) : (s.setReg n v).kdn = s.kdn := by cases n <;> rfl
@[simp] theorem State.setReg_bank (s : State) (n : RegName) (v : Reg) : (s.setReg n v).bank = s.bank := by cases n <;> rfl
@[simp] theorem State.setReg_cy (s : State) (n : RegName) (v : Reg) : (s.setReg n v).cy = s.cy := by cases n <;> rfl
@[simp] theorem State.setReg_ws (s : State) (n : RegName) (v : Reg) : (s.setReg n v).ws = s.ws := by cases n <;> rfl
@[simp] theorem State.setReg_disp (s : State) (n : RegName) (v : Reg) : (s.setReg n v).disp = s.disp := by cases n <;> rfl
@[simp] theorem State.setReg_rom (s : State) (n : RegName) (v : Reg) : (s.setReg n v).rom = s.rom := by cases n <;> rfl
@[simp] theorem State.setReg_result (s : State) (n : RegName) (v : Reg) : (s.setReg n v).result = s.result := by cases n <;> rfl
@[simp] theorem State.setReg_undefSeen (s : State) (n : RegName) (v : Reg) : (s.setReg n v).undefSeen = s.undefSeen := by cases n <;> rfl
@[simp] theorem State.reg_setReg (s : State) (n : RegName) (v : Reg) : (s.setReg n v).reg n = v := by cases n <;> rfl
theorem State.reg_setReg_ne (s : State) (n k : RegName) (v : Reg) (h : k ≠ n) : (s.setReg n v).reg k = s.reg k := by
  cases n <;> cases k <;> first | rfl | exact absurd rfl h
@[simp] theorem State.setReg_reg (s : State) (n : RegName) : s.setReg n (s.reg n) = s := by cases n <;> rfl
@[simp] theorem State.reg_a (s : State) : s.reg .a = s.a := rfl
@[simp] theorem State.reg_b (s : State) : s.reg .b = s.b := rfl
@[simp] theorem State.reg_c (s : State) : s.reg .c = s.c := rfl
@[simp] theorem State.reg_d (s : State) : s.reg .d = s.d := rfl
@[simp] theorem State.reg_e (s : State) : s.reg .e = s.e := rfl
@[simp] theorem State.reg_f (s : State) : s.reg .f = s.f := rfl
@[simp] theorem State.reg_m (s : State) : s.reg .m = s.m := rfl

/-! ## placeWord -/

@[simp] theorem State.placeWord_a (s : State) (w : Word) : (s.placeWord w).a = s.a := rfl
@[simp] theorem State.placeWord_b (s : State) (w : Word) : (s.placeWord w).b = s.b := rfl
@[simp] theorem State.placeWord_c (s : State) (w : Word) : (s.placeWord w).c = s.c := rfl
@[simp] theorem State.placeWord_d (s : State) (w : Word) : (s.placeWord w).d = s.d := rfl
@[simp] theorem State.placeWord_e (s : State) (w : Word) : (s.placeWord w).e = s.e := rfl
@[simp] theorem State.placeWord_f (s : State) (w : Word) : (s.placeWord w).f = s.f := rfl
@[simp] theorem State.placeWord_m (s : State) (w : Word) : (s.placeWord w).m = s.m := rfl
@[simp] theorem State.placeWord_aux (s : State) (w : Word) : (s.placeWord w).aux = s.aux := rfl
@[simp] theorem State.placeWord_pc (s : State) (w : Word) : (s.placeWord w).pc = s.pc := rfl
@[simp] theorem State.placeWord_status (s : State) (w : Word) : (s.placeWord w).status = s.status := rfl
@[simp] theorem State.placeWord_ret (s : State) (w : Word) : (s.placeWord w).ret = s.ret := rfl
@[simp] theorem State.placeWord_p (s : State) (w : Word) : (s.placeWord w).p = s.p := rfl
@[simp] theorem State.placeWord_key (s : State) (w : Word) : (s.placeWord w).key = s.key := rfl
@[simp] theorem State.placeWord_kdn (s : State) (w : Word) : (s.placeWord w).kdn = s.kdn := rfl
@[simp] theorem State.placeWord_bank (s : State) (w : Word) : (s.placeWord w).bank = s.bank := rfl
@[simp] theorem State.placeWord_cy (s : State) (w : Word) : (s.placeWord w).cy = s.cy := rfl
@[simp] theorem State.placeWord_ws (s : State) (w : Word) : (s.placeWord w).ws = s.ws := rfl
@[simp] theorem State.placeWord_disp (s : State) (w : Word) : (s.placeWord w).disp = s.disp := rfl
@[simp] theorem State.placeWord_rom (s : State) (w : Word) : (s.placeWord w).rom = Memory.write s.rom s.pc.toNat w := rfl
@[simp] theorem State.placeWord_result (s : State) (w : Word) : (s.placeWord w).result = s.result := rfl
@[simp] theorem State.placeWord_undefSeen (s : State) (w : Word) : (s.placeWord w).undefSeen = s.undefSeen := rfl

/-! ## keyDown -/

@[simp] theorem State.keyDown_a (s : State) (code : BitVec 8) : (s.keyDown code).a = s.a := rfl
@[simp] theorem State.keyDown_b (s : State) (code : BitVec 8) : (s.keyDown code).b = s.b := rfl
@[simp] theorem State.keyDown_c (s : State) (code : BitVec 8) : (s.keyDown code).c = s.c := rfl
@[simp] theorem State.keyDown_d (s : State) (code : BitVec 8) : (s.keyDown code).d = s.d := rfl
@[simp] theorem State.keyDown_e (s : State) (code : BitVec 8) : (s.keyDown code).e = s.e := rfl
@[simp] theorem State.keyDown_f (s : State) (code : BitVec 8) : (s.keyDown code).f = s.f := rfl
@[simp] theorem State.keyDown_m (s : State) (code : BitVec 8) : (s.keyDown code).m = s.m := rfl
@[simp] theorem State.keyDown_aux (s : State) (code : BitVec 8) : (s.keyDown code).aux = s.aux := rfl
@[simp] theorem State.keyDown_pc (s : State) (code : BitVec 8) : (s.keyDown code).pc = s.pc := rfl
@[simp] theorem State.keyDown_status (s : State) (code : BitVec 8) : (s.keyDown code).status = s.status := rfl
@[simp] theorem State.keyDown_ret (s : State) (code : BitVec 8) : (s.keyDown code).ret = s.ret := rfl
@[simp] theorem State.keyDown_p (s : State) (code : BitVec 8) : (s.keyDown code).p = s.p := rfl
@[simp] theorem State.keyDown_key (s : State) (code : BitVec 8) : (s.keyDown code).key = code := rfl
@[simp] theorem State.keyDown_kdn (s : State) (code : BitVec 8) : (s.keyDown code).kdn = true := rfl
@[simp] theorem State.keyDown_bank (s : State) (code : BitVec 8) : (s.keyDown code).bank = s.bank := rfl
@[simp] theorem State.keyDown_cy (s : State) (code : BitVec 8) : (s.keyDown code).cy = s.cy := rfl
@[simp] theorem State.keyDown_ws (s : State) (code : BitVec 8) : (s.keyDown code).ws = s.ws := rfl
@[simp] theorem State.keyDown_disp (s : State) (code : BitVec 8) : (s.keyDown code).disp = s.disp := rfl
@[simp] theorem State.keyDown_rom (s : State) (code : BitVec 8) : (s.keyDown code).rom = s.rom := rfl
@[simp] theorem State.keyDown_result (s : State) (code : BitVec 8) : (s.keyDown code).result = s.result := rfl
@[simp] theorem State.keyDown_undefSeen (s : State) (code : BitVec 8) : (s.keyDown code).undefSeen = s.undefSeen := rfl

/-! ## keyUp -/

@[simp] theorem State.keyUp_a (s : State) : (s.keyUp).a = s.a := rfl
@[simp] theorem State.keyUp_b (s : State) : (s.keyUp).b = s.b := rfl
@[simp] theorem State.keyUp_c (s : State) : (s.keyUp).c = s.c := rfl
@[simp] theorem State.keyUp_d (s : State) : (s.keyUp).d = s.d := rfl
@[simp] theorem State.keyUp_e (s : State) : (s.keyUp).e = s.e := rfl
@[simp] theorem State.keyUp_f (s : State) : (s.keyUp).f = s.f := rfl
@[simp] theorem State.keyUp_m (s : State) : (s.keyUp).m = s.m := rfl
@[simp] theorem State.keyUp_aux (s : State) : (s.keyUp).aux = s.aux := rfl
@[simp] theorem State.keyUp_pc (s : State) : (s.keyUp).pc = s.pc := rfl
@[simp] theorem State.keyUp_status (s : State) : (s.keyUp).status = s.status := rfl
@[simp] theorem State.keyUp_ret (s : State) : (s.keyUp).ret = s.ret := rfl
@[simp] theorem State.keyUp_p (s : State) : (s.keyUp).p = s.p := rfl
@[simp] theorem State.keyUp_key (s : State) : (s.keyUp).key = s.key := rfl
@[simp] theorem State.keyUp_kdn (s : State) : (s.keyUp).kdn = false := rfl
@[simp] theorem State.keyUp_bank (s : State) : (s.keyUp).bank = s.bank := rfl
@[simp] theorem State.keyUp_cy (s : State) : (s.keyUp).cy = s.cy := rfl
@[simp] theorem State.keyUp_ws (s : State) : (s.keyUp).ws = s.ws := rfl
@[simp] theorem State.keyUp_disp (s : State) : (s.keyUp).disp = s.disp := rfl
@[simp] theorem State.keyUp_rom (s : State) : (s.keyUp).rom = s.rom := rfl
@[simp] theorem State.keyUp_result (s : State) : (s.keyUp).result = s.result := rfl
@[simp] theorem State.keyUp_undefSeen (s : State) : (s.keyUp).undefSeen = s.undefSeen := rfl

/-! ## hostReset -/

@[simp] theorem State.hostReset_rom (s : State) : s.hostReset.rom = s.rom := rfl
@[simp] theorem State.hostReset_undefSeen (s : State) : s.hostReset.undefSeen = s.undefSeen := rfl
@[simp] theorem State.hostReset_a (s : State) : s.hostReset.a = State.reset.a := rfl
@[simp] theorem State.hostReset_b (s : State) : s.hostReset.b = State.reset.b := rfl
@[simp] theorem State.hostReset_c (s : State) : s.hostReset.c = State.reset.c := rfl
@[simp] theorem State.hostReset_d (s : State) : s.hostReset.d = State.reset.d := rfl
@[simp] theorem State.hostReset_e (s : State) : s.hostReset.e = State.reset.e := rfl
@[simp] theorem State.hostReset_f (s : State) : s.hostReset.f = State.reset.f := rfl
@[simp] theorem State.hostReset_m (s : State) : s.hostReset.m = State.reset.m := rfl
@[simp] theorem State.hostReset_aux (s : State) : s.hostReset.aux = State.reset.aux := rfl
@[simp] theorem State.hostReset_pc (s : State) : s.hostReset.pc = State.reset.pc := rfl
@[simp] theorem State.hostReset_status (s : State) : s.hostReset.status = State.reset.status := rfl
@[simp] theorem State.hostReset_ret (s : State) : s.hostReset.ret = State.reset.ret := rfl
@[simp] theorem State.hostReset_p (s : State) : s.hostReset.p = State.reset.p := rfl
@[simp] theorem State.hostReset_key (s : State) : s.hostReset.key = State.reset.key := rfl
@[simp] theorem State.hostReset_kdn (s : State) : s.hostReset.kdn = State.reset.kdn := rfl
@[simp] theorem State.hostReset_bank (s : State) : s.hostReset.bank = State.reset.bank := rfl
@[simp] theorem State.hostReset_cy (s : State) : s.hostReset.cy = State.reset.cy := rfl
@[simp] theorem State.hostReset_ws (s : State) : s.hostReset.ws = State.reset.ws := rfl
@[simp] theorem State.hostReset_disp (s : State) : s.hostReset.disp = State.reset.disp := rfl
@[simp] theorem State.hostReset_result (s : State) : s.hostReset.result = State.reset.result := rfl

end Sys2Proof.Machine
end

