-- ==== Sys2Proof/Laws/Ops.lean ====
section
/-!
SUPPORT. For each shared operation, one lemma that says all it can do; cited where its definition would be unfolded.
-/

namespace Sys2Proof.Machine

/-! ## The common operation of type C -/

/-- A type-C instruction answers a next state exactly where its field has a range, and it is the operation's state. -/
theorem typeC_next_iff (ws : WordSel) (s t : State) (op : Field → State → State) :
    typeC ws s op = .next t ↔ ∃ fl, ws.field s.p = some fl ∧ t = op fl { s with ws := ws } := by
  unfold typeC
  split <;> rename_i h <;> simp [h, eq_comm]

/-- It ends in a fault exactly where its field has no range. -/
theorem typeC_fault_iff (ws : WordSel) (s : State) (op : Field → State → State) (r : Fault) :
    typeC ws s op = .fault r ↔ ws.field s.p = none ∧ r = .pointerOutOfRange := by
  unfold typeC
  split <;> rename_i h <;> simp [h, eq_comm]

/-- It is never refused. -/
theorem typeC_ne_refused (ws : WordSel) (s : State) (op : Field → State → State) (r : Refusal) :
    typeC ws s op ≠ .refused r := by
  unfold typeC
  split <;> simp

/-! ## The primitives -/

/-- `copy` gives the cells of the field the source's, and keeps the others (R125). -/
theorem State.copyField_cell (dst src : RegName) (fl : Field) (s : State) (i : Nat) (h : i < 14) :
    ((s.copyField dst src fl).reg dst).cell i = if fl.has i then (s.reg src).cell i else (s.reg dst).cell i := by
  simp [State.copyField, Reg.cell_onField, h]

/-- `clear` zeroes the cells of the field and keeps the others (R133). -/
theorem State.clearField_cell (r : RegName) (fl : Field) (s : State) (i : Nat) (h : i < 14) :
    ((s.clearField r fl).reg r).cell i = if fl.has i then 0 else (s.reg r).cell i := by
  simp [State.clearField, Reg.cell_onField, h]

/-- `exchange` swaps the cells of the field of two different registers and keeps the others (R126). -/
theorem State.exchangeField_cell (r1 r2 : RegName) (fl : Field) (s : State) (i : Nat) (h : i < 14) (hne : r1 ≠ r2) :
    ((s.exchangeField r1 r2 fl).reg r1).cell i = (if fl.has i then (s.reg r2).cell i else (s.reg r1).cell i) ∧
    ((s.exchangeField r1 r2 fl).reg r2).cell i = (if fl.has i then (s.reg r1).cell i else (s.reg r2).cell i) := by
  simp [State.exchangeField, State.reg_setReg_ne _ _ _ _ hne, Reg.cell_onField, h]

/-- `shift(r, left)` moves the cells of the field one up, the lowest getting 0 (R132). -/
theorem State.shiftLeft_cell (r : RegName) (fl : Field) (s : State) (i : Nat) (h : i < 14) :
    ((s.shiftLeft r fl).reg r).cell i =
      if fl.has i then (if i = fl.lo then 0 else (s.reg r).cell (i - 1)) else (s.reg r).cell i := by
  simp [State.shiftLeft, Reg.cell_onField, h]

/-- `shift(r, right)` moves the cells of the field one down, the highest getting 0 (R132). -/
theorem State.shiftRight_cell (r : RegName) (fl : Field) (s : State) (i : Nat) (h : i < 14) :
    ((s.shiftRight r fl).reg r).cell i =
      if fl.has i then (if i = fl.hi then 0 else (s.reg r).cell (i + 1)) else (s.reg r).cell i := by
  simp [State.shiftRight, Reg.cell_onField, h]

/-- `add` gives the cells of the field the digits of the sum and keeps the others; CY is the carry out of the field (R127). -/
theorem State.addInto_cell (z : RegName) (x y : Reg) (fl : Field) (s : State) (i : Nat) (h : i < 14) :
    ((s.addInto z x y fl).reg z).cell i =
      if fl.has i then addDigit x y fl.lo (i - fl.lo) else (s.reg z).cell i := by
  cases z <;> simp [State.addInto, State.setReg, State.reg, Reg.cell_onField, h]

@[simp] theorem State.addInto_cy (z : RegName) (x y : Reg) (fl : Field) (s : State) :
    (s.addInto z x y fl).cy = addCarry x y fl.lo fl.width := rfl

/-- `subtract` gives the cells of the field the digits of the difference and keeps the others; CY is the borrow (R128). -/
theorem State.subInto_cell (z : RegName) (x y : Reg) (fl : Field) (s : State) (i : Nat) (h : i < 14) :
    ((s.subInto z x y fl).reg z).cell i =
      if fl.has i then subDigit x y fl.lo (i - fl.lo) else (s.reg z).cell i := by
  cases z <;> simp [State.subInto, State.setReg, State.reg, Reg.cell_onField, h]

@[simp] theorem State.subInto_cy (z : RegName) (x y : Reg) (fl : Field) (s : State) :
    (s.subInto z x y fl).cy = subBorrow x y fl.lo fl.width := rfl

/-- The nine's complement of the cells of the field; the others are kept and CY is 1 (R157). -/
theorem State.ninesComplement_cell (r : RegName) (fl : Field) (s : State) (i : Nat) (h : i < 14) :
    ((s.ninesComplement r fl).reg r).cell i =
      if fl.has i then .ofNat (9 - ((s.reg r).cell i).val) else (s.reg r).cell i := by
  cases r <;> simp [State.ninesComplement, State.setReg, State.reg, Reg.cell_onField, h]

@[simp] theorem State.ninesComplement_cy (r : RegName) (fl : Field) (s : State) :
    (s.ninesComplement r fl).cy = true := rfl

/-- The constant 1 of a field: its lowest cell is 1 and every other cell is 0 (R129). -/
theorem oneField_cell (fl : Field) (i : Nat) (h : i < 14) :
    (oneField fl).cell i = if fl.has i = true ∧ i = fl.lo then 1 else 0 := by
  rw [oneField, Reg.cell_onField _ _ _ _ h, Reg.cell_zero]
  by_cases h1 : fl.has i = true <;> simp [h1]

/-! ## Auxiliary storage -/

/-- A read gives the location of a bank of 0..9, and nothing for another bank (R56, R58). -/
theorem State.auxRead_eq (s : State) (bank : BitVec 4) :
    s.auxRead bank = if bank.toNat < 10 then s.aux[bank.toNat]? else none := by
  unfold State.auxRead
  split <;> simp_all

/-- A write changes the location of a bank of 0..9 and nothing else, and nothing for another bank (R57, R58). -/
theorem State.auxWrite_eq (s : State) (bank : BitVec 4) (x : Reg) :
    s.auxWrite bank x = { s with aux := if h : bank.toNat < 10 then s.aux.set bank.toNat x else s.aux } := by
  unfold State.auxWrite
  split <;> rfl

/-! ## One step -/

/-- A step either runs the decoded instruction or reports the undefined opcode, on the state the common steps leave (R107). -/
theorem step_cases (s : State) :
    (∃ i, decode s.fetch = .ok i ∧ step s = exec i (s.beginCycle s.fetch)) ∨
    (∃ u, decode s.fetch = .error u ∧ step s = .next ((s.beginCycle s.fetch).raiseUndefinedOpcode u)) := by
  unfold step
  split <;> rename_i h <;> simp [h]

end Sys2Proof.Machine
end

