-- ==== Sys2Proof/Laws/PerInstr.lean ====
section
/-!
SUPPORT. Families of lemmas over the instructions as syntax, one lemma for each constructor.
-/

namespace Sys2Proof.Laws.EncodeUpperClear

/-- The encoding of an instruction leaves bits 15:10 of its word 0 (R8, R70). -/
def Statement (i : Instr) : Prop := (encode i).extractLsb' 10 6 = 0

theorem ifBEq0 (ws : WordSel) : Statement (.ifBEq0 ws) := by cases ws <;> unfold Statement <;> decide
theorem clrB (ws : WordSel) : Statement (.clrB ws) := by cases ws <;> unfold Statement <;> decide
theorem ifAGeC (ws : WordSel) : Statement (.ifAGeC ws) := by cases ws <;> unfold Statement <;> decide
theorem ifCGe1 (ws : WordSel) : Statement (.ifCGe1 ws) := by cases ws <;> unfold Statement <;> decide
theorem bToC (ws : WordSel) : Statement (.bToC ws) := by cases ws <;> unfold Statement <;> decide
theorem negC (ws : WordSel) : Statement (.negC ws) := by cases ws <;> unfold Statement <;> decide
theorem clrC (ws : WordSel) : Statement (.clrC ws) := by cases ws <;> unfold Statement <;> decide
theorem negCM1 (ws : WordSel) : Statement (.negCM1 ws) := by cases ws <;> unfold Statement <;> decide
theorem shlA (ws : WordSel) : Statement (.shlA ws) := by cases ws <;> unfold Statement <;> decide
theorem aToB (ws : WordSel) : Statement (.aToB ws) := by cases ws <;> unfold Statement <;> decide
theorem aSubCToC (ws : WordSel) : Statement (.aSubCToC ws) := by cases ws <;> unfold Statement <;> decide
theorem decC (ws : WordSel) : Statement (.decC ws) := by cases ws <;> unfold Statement <;> decide
theorem cToA (ws : WordSel) : Statement (.cToA ws) := by cases ws <;> unfold Statement <;> decide
theorem ifCEq0 (ws : WordSel) : Statement (.ifCEq0 ws) := by cases ws <;> unfold Statement <;> decide
theorem aAddCToC (ws : WordSel) : Statement (.aAddCToC ws) := by cases ws <;> unfold Statement <;> decide
theorem incC (ws : WordSel) : Statement (.incC ws) := by cases ws <;> unfold Statement <;> decide
theorem ifAGeB (ws : WordSel) : Statement (.ifAGeB ws) := by cases ws <;> unfold Statement <;> decide
theorem bExchC (ws : WordSel) : Statement (.bExchC ws) := by cases ws <;> unfold Statement <;> decide
theorem shrC (ws : WordSel) : Statement (.shrC ws) := by cases ws <;> unfold Statement <;> decide
theorem ifAGe1 (ws : WordSel) : Statement (.ifAGe1 ws) := by cases ws <;> unfold Statement <;> decide
theorem shrB (ws : WordSel) : Statement (.shrB ws) := by cases ws <;> unfold Statement <;> decide
theorem cAddCToC (ws : WordSel) : Statement (.cAddCToC ws) := by cases ws <;> unfold Statement <;> decide
theorem shrA (ws : WordSel) : Statement (.shrA ws) := by cases ws <;> unfold Statement <;> decide
theorem clrA (ws : WordSel) : Statement (.clrA ws) := by cases ws <;> unfold Statement <;> decide
theorem aSubBToA (ws : WordSel) : Statement (.aSubBToA ws) := by cases ws <;> unfold Statement <;> decide
theorem aExchB (ws : WordSel) : Statement (.aExchB ws) := by cases ws <;> unfold Statement <;> decide
theorem aSubCToA (ws : WordSel) : Statement (.aSubCToA ws) := by cases ws <;> unfold Statement <;> decide
theorem decA (ws : WordSel) : Statement (.decA ws) := by cases ws <;> unfold Statement <;> decide
theorem aAddBToA (ws : WordSel) : Statement (.aAddBToA ws) := by cases ws <;> unfold Statement <;> decide
theorem aExchC (ws : WordSel) : Statement (.aExchC ws) := by cases ws <;> unfold Statement <;> decide
theorem aAddCToA (ws : WordSel) : Statement (.aAddCToA ws) := by cases ws <;> unfold Statement <;> decide
theorem incA (ws : WordSel) : Statement (.incA ws) := by cases ws <;> unfold Statement <;> decide
theorem setS (n : BitVec 4) : Statement (.setS n) := by revert n; unfold Statement; decide
theorem testS (n : BitVec 4) : Statement (.testS n) := by revert n; unfold Statement; decide
theorem resetS (n : BitVec 4) : Statement (.resetS n) := by revert n; unfold Statement; decide
theorem clearStatus : Statement .clearStatus := by unfold Statement; decide
theorem setP (n : BitVec 4) : Statement (.setP n) := by revert n; unfold Statement; decide
theorem decP : Statement .decP := by unfold Statement; decide
theorem testP (n : BitVec 4) : Statement (.testP n) := by revert n; unfold Statement; decide
theorem incP : Statement .incP := by unfold Statement; decide
theorem loadConst (n : BitVec 4) : Statement (.loadConst n) := by revert n; unfold Statement; decide
theorem displayToggle : Statement .displayToggle := by unfold Statement; decide
theorem cExchM : Statement .cExchM := by unfold Statement; decide
theorem cToStack : Statement .cToStack := by unfold Statement; decide
theorem stackToA : Statement .stackToA := by unfold Statement; decide
theorem displayOff : Statement .displayOff := by unfold Statement; decide
theorem mToC : Statement .mToC := by unfold Statement; decide
theorem downRotate : Statement .downRotate := by unfold Statement; decide
theorem clearRegs : Statement .clearRegs := by unfold Statement; decide
theorem dataToC : Statement .dataToC := by unfold Statement; decide
theorem nop : Statement .nop := by unfold Statement; decide
theorem selRom (g : BitVec 3) : Statement (.selRom g) := by revert g; unfold Statement; decide
theorem ret : Statement .ret := by unfold Statement; decide
theorem keysToRom : Statement .keysToRom := by unfold Statement; decide
theorem cToAddr : Statement .cToAddr := by unfold Statement; decide
theorem cToData : Statement .cToData := by unfold Statement; decide
theorem jsb (t : BitVec 8) : Statement (.jsb t) := by revert t; unfold Statement; decide
theorem branch (t : BitVec 8) : Statement (.branch t) := by revert t; unfold Statement; decide

end Sys2Proof.Laws.EncodeUpperClear
end

