-- ==== Sys2Proof/Tests/Slice0.lean ====
section
/-!
SUPPORT. Tests. Every expected value is one of the spec: an encoding of 30_encoding.md (R73 to R83) written out bit by bit, a
worked example or a vector of 95_test_vectors.md, or a value its rules give by hand calculation.
-/

namespace Sys2Proof.Tests

open Sys2Proof Sys2Proof.Machine

/-! ## Helpers -/

/-- The register that spells a decimal number, cell 0 its last digit. -/
def digits (n : Nat) : Reg := Reg.tab fun i => Digit.ofNat (n / 10 ^ i)

/-- Whether a step at `w` placed at the program counter answers a next state of which `f` holds. -/
def after (s : State) (w : Word) (f : State → Bool) : Bool :=
  match step (s.placeWord w) with
  | .next t => f t
  | .fault _ => false
  | .refused _ => false

/-- Whether a step at `w` placed at the program counter ends in the fault. -/
def faults (s : State) (w : Word) (r : Fault) : Bool :=
  match step (s.placeWord w) with
  | .next _ => false
  | .fault q => q = r
  | .refused _ => false

/-- Whether `f` holds of the state an instruction's meaning answers. -/
def runs (i : Instr) (s : State) (f : State → Bool) : Bool :=
  match exec i s with
  | .next t => f t
  | .fault _ => false
  | .refused _ => false

/-- The start state of table V-C. -/
def start : State :=
  { State.reset with a := digits 45999999999312, b := digits 05000000001688, c := digits 60000000001005, p := 5 }

/-- Four registers of one repeated digit each, as in table V-D. -/
def stacked : State :=
  { State.reset with
    c := digits 11111111111111, d := digits 22222222222222, e := digits 33333333333333, f := digits 44444444444444 }

/-! ## WellFormed refuses the terms no encoding stands for (R77, R88) -/

theorem test_wellFormed_refuses_set_flag_12 : (Instr.setS 12).wellFormed = false := by decide
theorem test_wellFormed_refuses_test_flag_12 : (Instr.testS 12).wellFormed = false := by decide
theorem test_wellFormed_refuses_reset_flag_15 : (Instr.resetS 15).wellFormed = false := by decide
theorem test_wellFormed_accepts_the_highest_flag : (Instr.setS 11).wellFormed = true := by decide
theorem test_wellFormed_accepts_pointer_15 : (Instr.setP 15).wellFormed = true := by decide

/-! ## Decoding: type C, `op ws 10` (R78) -/

theorem test_decode_ifBEq0 : decode 0b000000_00000_000_10 = .ok (.ifBEq0 .p) := by decide
theorem test_decode_clrB : decode 0b000000_00001_001_10 = .ok (.clrB .m) := by decide
theorem test_decode_ifAGeC : decode 0b000000_00010_010_10 = .ok (.ifAGeC .x) := by decide
theorem test_decode_ifCGe1 : decode 0b000000_00011_011_10 = .ok (.ifCGe1 .w) := by decide
theorem test_decode_bToC : decode 0b000000_00100_100_10 = .ok (.bToC .wp) := by decide
theorem test_decode_negC : decode 0b000000_00101_101_10 = .ok (.negC .ms) := by decide
theorem test_decode_clrC : decode 0b000000_00110_110_10 = .ok (.clrC .xs) := by decide
theorem test_decode_negCM1 : decode 0b000000_00111_111_10 = .ok (.negCM1 .s) := by decide
theorem test_decode_shlA : decode 0b000000_01000_000_10 = .ok (.shlA .p) := by decide
theorem test_decode_aToB : decode 0b000000_01001_001_10 = .ok (.aToB .m) := by decide
theorem test_decode_aSubCToC : decode 0b000000_01010_010_10 = .ok (.aSubCToC .x) := by decide
theorem test_decode_decC : decode 0b000000_01011_011_10 = .ok (.decC .w) := by decide
theorem test_decode_cToA : decode 0b000000_01100_100_10 = .ok (.cToA .wp) := by decide
theorem test_decode_ifCEq0 : decode 0b000000_01101_101_10 = .ok (.ifCEq0 .ms) := by decide
theorem test_decode_aAddCToC : decode 0b000000_01110_110_10 = .ok (.aAddCToC .xs) := by decide
theorem test_decode_incC : decode 0b000000_01111_111_10 = .ok (.incC .s) := by decide
theorem test_decode_ifAGeB : decode 0b000000_10000_000_10 = .ok (.ifAGeB .p) := by decide
theorem test_decode_bExchC : decode 0b000000_10001_001_10 = .ok (.bExchC .m) := by decide
theorem test_decode_shrC : decode 0b000000_10010_010_10 = .ok (.shrC .x) := by decide
theorem test_decode_ifAGe1 : decode 0b000000_10011_011_10 = .ok (.ifAGe1 .w) := by decide
theorem test_decode_shrB : decode 0b000000_10100_100_10 = .ok (.shrB .wp) := by decide
theorem test_decode_cAddCToC : decode 0b000000_10101_101_10 = .ok (.cAddCToC .ms) := by decide
theorem test_decode_shrA : decode 0b000000_10110_110_10 = .ok (.shrA .xs) := by decide
theorem test_decode_clrA : decode 0b000000_10111_111_10 = .ok (.clrA .s) := by decide
theorem test_decode_aSubBToA : decode 0b000000_11000_000_10 = .ok (.aSubBToA .p) := by decide
theorem test_decode_aExchB : decode 0b000000_11001_001_10 = .ok (.aExchB .m) := by decide
theorem test_decode_aSubCToA : decode 0b000000_11010_010_10 = .ok (.aSubCToA .x) := by decide
theorem test_decode_decA : decode 0b000000_11011_011_10 = .ok (.decA .w) := by decide
theorem test_decode_aAddBToA : decode 0b000000_11100_100_10 = .ok (.aAddBToA .wp) := by decide
theorem test_decode_aExchC : decode 0b000000_11101_101_10 = .ok (.aExchC .ms) := by decide
theorem test_decode_aAddCToA : decode 0b000000_11110_110_10 = .ok (.aAddCToA .xs) := by decide
theorem test_decode_incA : decode 0b000000_11111_111_10 = .ok (.incA .s) := by decide

/-! ## Decoding: the status class, `n sub 01 00` (R79) -/

theorem test_decode_setS : decode 0b000000_1011_00_01_00 = .ok (.setS 11) := by decide
theorem test_decode_testS : decode 0b000000_0101_01_01_00 = .ok (.testS 5) := by decide
theorem test_decode_resetS : decode 0b000000_0011_10_01_00 = .ok (.resetS 3) := by decide
theorem test_decode_clearStatus : decode 0b000000_0000_11_01_00 = .ok .clearStatus := by decide

/-! ## Decoding: the pointer class, `n sub 11 00` (R80) -/

theorem test_decode_setP : decode 0b000000_1101_00_11_00 = .ok (.setP 13) := by decide
theorem test_decode_decP : decode 0b000000_0000_01_11_00 = .ok .decP := by decide
theorem test_decode_testP : decode 0b000000_1110_10_11_00 = .ok (.testP 14) := by decide
theorem test_decode_incP : decode 0b000000_0000_11_11_00 = .ok .incP := by decide

/-! ## Decoding: the data-entry class, `n 01 10 00`, `ggg 010 10 00` and one word of its own (R81) -/

theorem test_decode_loadConst : decode 0b000000_0111_01_10_00 = .ok (.loadConst 7) := by decide
theorem test_decode_displayToggle : decode 0b000000_000_010_10_00 = .ok .displayToggle := by decide
theorem test_decode_cExchM : decode 0b000000_001_010_10_00 = .ok .cExchM := by decide
theorem test_decode_cToStack : decode 0b000000_010_010_10_00 = .ok .cToStack := by decide
theorem test_decode_stackToA : decode 0b000000_011_010_10_00 = .ok .stackToA := by decide
theorem test_decode_displayOff : decode 0b000000_100_010_10_00 = .ok .displayOff := by decide
theorem test_decode_mToC : decode 0b000000_101_010_10_00 = .ok .mToC := by decide
theorem test_decode_downRotate : decode 0b000000_110_010_10_00 = .ok .downRotate := by decide
theorem test_decode_clearRegs : decode 0b000000_111_010_10_00 = .ok .clearRegs := by decide
theorem test_decode_dataToC : decode 0b000000_101111_10_00 = .ok .dataToC := by decide

/-! ## Decoding: the ROM-select class (R82) and types B and D (R83) -/

theorem test_decode_nop : decode 0b000000_000000_00_00 = .ok .nop := by decide
theorem test_decode_selRom : decode 0b000000_110_001_00_00 = .ok (.selRom 6) := by decide
theorem test_decode_ret : decode 0b000000_000011_00_00 = .ok .ret := by decide
theorem test_decode_keysToRom : decode 0b000000_001101_00_00 = .ok .keysToRom := by decide
theorem test_decode_cToAddr : decode 0b000000_100111_00_00 = .ok .cToAddr := by decide
theorem test_decode_cToData : decode 0b000000_101111_00_00 = .ok .cToData := by decide
theorem test_decode_jsb : decode 0b000000_01000110_01 = .ok (.jsb 0x46) := by decide
theorem test_decode_branch : decode 0b000000_00111010_11 = .ok (.branch 0x3A) := by decide

/-! ## Decoding: undefined opcodes, one of each class (R87; vectors of V-S, V-P, V-D, V-M), and bits 15:10 (R8) -/

theorem test_decode_undefined_flag_12 : decode 0b000000_1100_00_01_00 = .error ⟨.status, 0xC1⟩ := by decide
theorem test_decode_undefined_clear_status_1 : decode 0b000000_0001_11_01_00 = .error ⟨.status, 0x1D⟩ := by decide
theorem test_decode_undefined_pointer : decode 0b000000_0001_01_11_00 = .error ⟨.pointer, 0x17⟩ := by decide
theorem test_decode_undefined_data_entry : decode 0b000000_111111_10_00 = .error ⟨.dataEntry, 0xFE⟩ := by decide
theorem test_decode_undefined_rom_misc : decode 0b000000_101101_00_00 = .error ⟨.romMisc, 0xB4⟩ := by decide
theorem test_decode_ignores_the_upper_six_bits : decode 0b111111_0101_00_01_00 = .ok (.setS 5) := by decide

/-! ## Encoding: words of 95_test_vectors.md -/

theorem test_encode_shrB_m : encode (.shrB .m) = 0x286 := by decide
theorem test_encode_setP_13 : encode (.setP 13) = 0x34C := by decide
theorem test_encode_selRom_7 : encode (.selRom 7) = 0x390 := by decide
theorem test_encode_jsb_FF : encode (.jsb 0xFF) = 0x3FD := by decide
theorem test_decodeTableWord_reads_the_row : decodeTableWord 10 0x2F8 = some .dataToC := by decide
theorem test_decodeTableWord_refuses_an_undefined_opcode : decodeTableWord 10 0x304 = none := by decide

/-! ## Steps: type C, from the tables V-C and V-C2 -/

theorem test_step_ifBEq0 : after start 0x006 (fun t => t.cy) = true := by decide
theorem test_step_clrB : after start 0x026 (fun t => t.b = digits 00000000000688 && !t.cy) = true := by decide
theorem test_step_ifAGeC : after start 0x04E (fun t => t.cy) = true := by decide
theorem test_step_ifCGe1 : after start 0x062 (fun t => t.cy) = true := by decide
theorem test_step_bToC : after start 0x086 (fun t => t.c = digits 65000000001005 && !t.cy) = true := by decide
theorem test_step_negC : after start 0x0A6 (fun t => t.c = digits 69999999999005 && t.cy) = true := by decide
theorem test_step_clrC : after start 0x0C6 (fun t => t.c = digits 60000000000005 && !t.cy) = true := by decide
theorem test_step_negCM1 : after start 0x0E2 (fun t => t.c = digits 60000000901005 && t.cy) = true := by decide
theorem test_step_shlA : after start 0x106 (fun t => t.a = digits 49999999990312 && !t.cy) = true := by decide
theorem test_step_aToB : after start 0x126 (fun t => t.b = digits 05999999999688 && !t.cy) = true := by decide
theorem test_step_aSubCToC : after start 0x146 (fun t => t.c = digits 65999999998005 && !t.cy) = true := by decide
theorem test_step_decC : after start 0x162 (fun t => t.c = digits 60000000901005 && t.cy) = true := by decide
theorem test_step_cToA : after start 0x186 (fun t => t.a = digits 40000000001312 && !t.cy) = true := by decide
theorem test_step_ifCEq0 : after start 0x1A2 (fun t => !t.cy) = true := by decide
theorem test_step_aAddCToC : after start 0x1C6 (fun t => t.c = digits 66000000000005 && !t.cy) = true := by decide
theorem test_step_incC : after start 0x1E6 (fun t => t.c = digits 60000000002005 && !t.cy) = true := by decide
theorem test_step_ifAGeB : after start 0x20E (fun t => !t.cy) = true := by decide
theorem test_step_bExchC :
    after start 0x226 (fun t => t.b = digits 00000000001688 && t.c = digits 65000000001005) = true := by decide
theorem test_step_shrC : after start 0x246 (fun t => t.c = digits 60000000000005 && !t.cy) = true := by decide
theorem test_step_ifAGe1 : after start 0x26E (fun t => !t.cy) = true := by decide
theorem test_step_shrB : after start 0x286 (fun t => t.b = digits 00500000000688 && !t.cy) = true := by decide
theorem test_step_cAddCToC : after start 0x2A6 (fun t => t.c = digits 60000000002005 && !t.cy) = true := by decide
theorem test_step_shrA : after start 0x2C6 (fun t => t.a = digits 40599999999312 && !t.cy) = true := by decide
theorem test_step_clrA : after start 0x2E6 (fun t => t.a = digits 40000000000312 && !t.cy) = true := by decide
theorem test_step_aSubBToA : after start 0x306 (fun t => t.a = digits 40999999998312 && !t.cy) = true := by decide
theorem test_step_aExchB :
    after start 0x326 (fun t => t.a = digits 45000000001312 && t.b = digits 05999999999688) = true := by decide
theorem test_step_aSubCToA : after start 0x346 (fun t => t.a = digits 45999999998312 && !t.cy) = true := by decide
theorem test_step_decA : after start 0x366 (fun t => t.a = digits 45999999998312 && !t.cy) = true := by decide
theorem test_step_aAddBToA : after start 0x386 (fun t => t.a = digits 41000000000312 && t.cy) = true := by decide
theorem test_step_aExchC :
    after start 0x3A6 (fun t => t.a = digits 40000000001312 && t.c = digits 65999999999005) = true := by decide
theorem test_step_aAddCToA : after start 0x3C6 (fun t => t.a = digits 46000000000312 && !t.cy) = true := by decide
theorem test_step_incA : after start 0x3E2 (fun t => t.a = digits 45999999099312 && t.cy) = true := by decide

/-- C3: the scan of `compare-ge` stops at the first cell that differs. -/
theorem test_step_ifAGeC_stops_at_the_first_difference :
    after { State.reset with a := digits 20000000000000, c := digits 19999999999999 } 0x04E
      (fun t => !t.cy) = true := by decide
theorem test_step_incA_of_nines :
    after { State.reset with a := digits 99999999999999 } 0x3EE (fun t => t.a = Reg.zero && t.cy) = true := by decide
theorem test_step_decA_of_zero : after State.reset 0x36E (fun t => t.a = digits 99999999999999 && t.cy) = true := by decide
theorem test_step_negC_of_zero : after State.reset 0x0AE (fun t => t.c = Reg.zero && !t.cy) = true := by decide
theorem test_step_shlA_ms :
    after { State.reset with a := digits 12345678901234 } 0x116 (fun t => t.a = digits 23456789010234) = true := by decide
theorem test_step_shrA_x :
    after { State.reset with a := digits 12345678901234 } 0x2CA (fun t => t.a = digits 12345678901023) = true := by decide
theorem test_step_clrA_p_faults_at_14 : faults { start with p := 14 } 0x2E2 .pointerOutOfRange = true := by decide
theorem test_step_ifBEq0_wp_faults_at_15 : faults { start with p := 15 } 0x012 .pointerOutOfRange = true := by decide

/-! ## Steps: status and pointer, from the tables V-S and V-P -/

theorem test_step_setS : after State.reset 0x2C4 (fun t => t.status = 0x800) = true := by decide
theorem test_step_testS :
    after { State.reset with status := 0x7FF } 0x2D4 (fun t => !t.cy && t.status = 0x7FE) = true := by decide
theorem test_step_testS_0_reads_the_key :
    after { State.reset with kdn := true } 0x014 (fun t => t.cy && t.status = 0x001) = true := by decide
theorem test_step_resetS : after { State.reset with status := 0xFFF } 0x2E4 (fun t => t.status = 0x7FE) = true := by decide
theorem test_step_clearStatus :
    after { State.reset with status := 0xFFF, kdn := true } 0x034 (fun t => t.status = 0x000) = true := by decide
theorem test_step_setP : after State.reset 0x3CC (fun t => t.p = 15) = true := by decide
theorem test_step_decP_wraps : after State.reset 0x01C (fun t => t.p = 15) = true := by decide
theorem test_step_incP_wraps : after { State.reset with p := 15 } 0x03C (fun t => t.p = 0) = true := by decide
theorem test_step_testP : after { State.reset with p := 15 } 0x3EC (fun t => t.cy) = true := by decide
theorem test_step_testP_differs : after State.reset 0x06C (fun t => !t.cy) = true := by decide

/-! ## Steps: data entry and ROM select, from the tables V-D and V-M -/

theorem test_step_loadConst :
    after { State.reset with p := 3 } 0x258 (fun t => t.c = digits 9000 && t.p = 2) = true := by decide
theorem test_step_loadConst_10_faults : faults { start with p := 14 } 0x298 .nonBcdConstant = true := by decide
theorem test_step_displayToggle : after State.reset 0x028 (fun t => t.disp) = true := by decide
theorem test_step_displayOff : after { State.reset with disp := true } 0x228 (fun t => !t.disp) = true := by decide
theorem test_step_cExchM :
    after { State.reset with c := digits 11111111111111, m := digits 22222222222222 } 0x0A8
      (fun t => t.c = digits 22222222222222 && t.m = digits 11111111111111) = true := by decide
theorem test_step_cToStack : after stacked 0x128 (fun t => t.d = stacked.c && t.f = stacked.e) = true := by decide
theorem test_step_stackToA : after stacked 0x1A8 (fun t => t.a = stacked.d && t.e = stacked.f) = true := by decide
theorem test_step_mToC :
    after { State.reset with m := digits 91234567890123 } 0x2A8 (fun t => t.c = digits 91234567890123) = true := by decide
theorem test_step_downRotate : after stacked 0x328 (fun t => t.c = stacked.d && t.f = stacked.c) = true := by decide
theorem test_step_clearRegs :
    after { stacked with aux := Vector.replicate 10 stacked.c } 0x3A8
      (fun t => t.f = Reg.zero && t.aux[0] = stacked.c) = true := by decide
theorem test_step_dataToC :
    after { stacked with bank := 9, aux := State.reset.aux.set 9 stacked.d } 0x2F8
      (fun t => t.c = stacked.d) = true := by decide
theorem test_step_dataToC_bank_10 : after { stacked with bank := 10 } 0x2F8 (fun t => t.c = stacked.c) = true := by decide
theorem test_step_nop_wraps_in_the_page :
    after { State.reset with pc := 0x7FF } 0x000 (fun t => t.pc = 0x700) = true := by decide
theorem test_step_selRom_after_the_wrap :
    after { State.reset with pc := 0x0FF } 0x390 (fun t => t.pc = 0x700) = true := by decide
theorem test_step_ret : after { State.reset with pc := 0x300, ret := 0x77 } 0x030 (fun t => t.pc = 0x377) = true := by decide
theorem test_step_keysToRom :
    after { State.reset with pc := 0x412, key := 0xFE } 0x0D0 (fun t => t.pc = 0x4FE) = true := by decide
theorem test_step_cToAddr :
    after { State.reset with c := digits 09000000000000 } 0x270 (fun t => t.bank = 9) = true := by decide
theorem test_step_cToData : after { stacked with bank := 9 } 0x2F0 (fun t => t.aux[9] = stacked.c) = true := by decide
theorem test_step_cToData_bank_12 :
    after { stacked with bank := 12 } 0x2F0 (fun t => t.aux = State.reset.aux) = true := by decide

/-! ## Steps: call and branch, the cycle and the undefined opcode, from the tables V-B, V-E and example T10 -/

theorem test_step_jsb :
    after { State.reset with pc := 0x6FF } 0x3FD (fun t => t.pc = 0x6FF && t.ret = 0x00) = true := by decide
theorem test_step_branch_taken :
    after { State.reset with pc := 0x500 } 0x0EB (fun t => t.pc = 0x53A && !t.cy) = true := by decide
theorem test_step_branch_not_taken :
    after { State.reset with pc := 0x2FF, cy := true } 0x003 (fun t => t.pc = 0x200 && !t.cy) = true := by decide
theorem test_step_clears_carry : after { State.reset with cy := true } 0x000 (fun t => !t.cy) = true := by decide
theorem test_step_ignores_the_upper_six_bits : after State.reset 0xFD44 (fun t => t.status = 0x020) = true := by decide
theorem test_step_undefined_opcode :
    after State.reset 0x304 (fun t => t.status = 0 && t.pc = 1 && t.result = .undefined ⟨.status, 0xC1⟩) = true := by decide
theorem test_key_down_then_up_keeps_the_code : (State.reset.keyDown 0x15).keyUp = { State.reset with key := 0x15 } := by decide
theorem test_withFetchWord_is_what_runs : (State.reset.withFetchWord 10 0x34C).fetch = 0x34C := by decide

/-! ## Witnesses: for each statement with hypotheses, a state and operands that meet them all -/

/-- The reset state with an instruction word at the program counter. -/
def ready (w : Word) : State := State.reset.placeWord w

/-- Two levels of the stack, M, a bank and a flag set, a key down, and an instruction word at the program counter. -/
def busy (w : Word) : State :=
  { stacked with m := digits 55555555555555, bank := 9, kdn := true, key := 0x2A, ret := 0x77, disp := true, p := 13,
                 status := 0x800, pc := 0x2FF }.placeWord w

theorem test_witness_DecodeOfEncode : (Instr.testS 11).wellFormed = true ∧ encode (.testS 11) = 0x2D4 := by decide

theorem test_witness_EncodeOfDecode : decode 0xFD44 = .ok (.setS 5) := by decide

theorem test_witness_UpperBitsNeverInfluence : Memory.wf (busy 0x144).rom = true ∧
    (0xFD44 : Word).extractLsb' 0 10 = (0x0144 : Word).extractLsb' 0 10 := by decide

theorem test_witness_UndefinedWordsAreTheUnmappedOnes : decode 0x304 = .error ⟨.status, 0xC1⟩ ∧ unmappedIn 0x304 .status = true ∧
    decode 0x2C4 = .ok (.setS 11) ∧ unmappedIn 0x2C4 .status = false := by decide

theorem test_witness_StepRunsTheDecodedInstruction : (Instr.aAddBToA .w).wellFormed = true ∧
    decode (Memory.read (ready 0x38E).rom (ready 0x38E).pc.toNat) = .ok (.aAddBToA .w) := by decide

/-- The offset at its last value, and the flag next to flag 0 and the last one. -/
theorem test_witness_CommonStepsOfTheCycle : ((busy 0x000).beginCycle 0x000).pc = 0x200 ∧ (1 : BitVec 4) ≠ 0 ∧ (11 : BitVec 4) ≠ 0 ∧
    ((busy 0x000).beginCycle 0x000).status = 0x801 := by decide

theorem test_witness_UndefinedOpcodeStep : decode (busy 0x304).fetch = .error ⟨.status, 0xC1⟩ := by decide

theorem test_witness_ControlTransferOfEveryStep_jsb : decode (busy 0x101).fetch = .ok (.jsb 0x40) ∧
    step (busy 0x101) = .next { busy 0x101 with pc := 0x240, ret := 0x00, status := 0x801 } := ⟨by decide, rfl⟩

theorem test_witness_ControlTransferOfEveryStep_branch : decode (busy 0x0EB).fetch = .ok (.branch 0x3A) ∧
    step (busy 0x0EB) = .next { busy 0x0EB with pc := 0x23A, status := 0x801 } ∧
    step { busy 0x0EB with cy := true } = .next { busy 0x0EB with pc := 0x200, status := 0x801 } := ⟨by decide, rfl, rfl⟩

theorem test_witness_ControlTransferOfEveryStep_ret : decode (busy 0x030).fetch = .ok .ret ∧
    step (busy 0x030) = .next { busy 0x030 with pc := 0x277, status := 0x801 } := ⟨by decide, rfl⟩

theorem test_witness_ControlTransferOfEveryStep_keys : decode (busy 0x0D0).fetch = .ok .keysToRom ∧
    step (busy 0x0D0) = .next { busy 0x0D0 with pc := 0x22A, status := 0x801 } := ⟨by decide, rfl⟩

theorem test_witness_ControlTransferOfEveryStep_page : decode (busy 0x390).fetch = .ok (.selRom 7) ∧
    step (busy 0x390) = .next { busy 0x390 with pc := 0x700, status := 0x801 } := ⟨by decide, rfl⟩

theorem test_witness_StepKeepsTheInvariant : (ready 0x304).Inv ∧ step (ready 0x304) =
    .next { ready 0x304 with pc := 1, result := .undefined ⟨.status, 0xC1⟩, undefSeen := some ⟨.status, 0xC1⟩ } :=
  ⟨⟨by decide, by decide, by decide⟩, rfl⟩

theorem test_witness_StepKeepsTheInvariant_bank : (busy 0x270).Inv ∧
    step (busy 0x270) = .next { busy 0x270 with pc := 0x200, status := 0x801, bank := 1 } :=
  ⟨⟨by decide, by decide, by decide⟩, rfl⟩

theorem test_witness_CarryLivesForOneInstruction : (ready 0x1D8).fetch.extractLsb' 0 2 ≠ 3 ∧
    decode { ready 0x01C with cy := true }.fetch = .ok .decP ∧ Instr.decP.givesCarry = false ∧
    step { ready 0x01C with cy := true } = .next { ready 0x01C with pc := 1, p := 15 } := ⟨by decide, by decide, rfl, rfl⟩

theorem test_witness_FlagZeroMirrorsTheKey : decode (busy 0x014).fetch = .ok (.testS 0) ∧
    step (busy 0x014) = .next { busy 0x014 with pc := 0x200, status := 0x801, cy := true } := ⟨by decide, rfl⟩

/-- A step for each clause: A and WS by type C, A by STACK_TO_A, B by type C, C by LOAD_CONST and by M_TO_C, M, then D and F, then
one for each other register and store. -/
theorem test_witness_OnlyNamedInstructionsWriteStorage :
    after (busy 0x3EE) 0x3EE (fun t => t.a ≠ (busy 0x3EE).a && t.ws ≠ (busy 0x3EE).ws) = true ∧
    after (busy 0x1A8) 0x1A8 (fun t => t.a ≠ (busy 0x1A8).a) = true ∧
    after (busy 0x22E) 0x22E (fun t => t.b ≠ (busy 0x22E).b) = true ∧
    after (busy 0x258) 0x258 (fun t => t.c ≠ (busy 0x258).c) = true ∧
    after (busy 0x2A8) 0x2A8 (fun t => t.c ≠ (busy 0x2A8).c) = true ∧
    after (busy 0x0A8) 0x0A8 (fun t => t.m ≠ (busy 0x0A8).m) = true ∧
    after (busy 0x128) 0x128 (fun t => t.d ≠ (busy 0x128).d && t.f ≠ (busy 0x128).f) = true ∧
    after (busy 0x2F0) 0x2F0 (fun t => t.aux ≠ (busy 0x2F0).aux) = true ∧
    after (busy 0x270) 0x270 (fun t => t.bank ≠ (busy 0x270).bank) = true ∧
    after (busy 0x228) 0x228 (fun t => t.disp ≠ (busy 0x228).disp) = true ∧
    after (busy 0x101) 0x101 (fun t => t.ret ≠ (busy 0x101).ret) = true ∧
    after (busy 0x258) 0x258 (fun t => t.p ≠ (busy 0x258).p) = true ∧
    after (busy 0x2E4) 0x2E4 (fun t => flagAt t.status 11 ≠ flagAt (busy 0x2E4).status 11) = true := by decide

/-- Both faults, at the boundary values of the pointer and of the constant, and a step that has neither. -/
theorem test_witness_StepFaultsExactlyWhere :
    faults { start with p := 14 } 0x2E2 .pointerOutOfRange = true ∧ faults { start with p := 14 } 0x012 .pointerOutOfRange = true ∧
    faults { start with p := 14 } 0x258 .pointerOutOfRange = true ∧ faults { start with p := 14 } 0x298 .nonBcdConstant = true ∧
    after { start with p := 13 } 0x258 (fun t => t.c.cell 13 = 9) = true := by decide

theorem test_witness_StatusTellsWhetherTheOpcodeIsMapped : decode (ready 0x2C4).fetch = .ok (.setS 11) ∧
    step (ready 0x2C4) = .next { ready 0x2C4 with pc := 1, status := 0x800 } ∧ decode (ready 0x304).fetch = .error ⟨.status, 0xC1⟩ ∧
    Config.undefCode ⟨.status, 0xC1⟩ = Config.undefCode ⟨.status, (0b1100 : BitVec 4) ++ (0b0001 : BitVec 4)⟩ := ⟨by decide, rfl, by decide, rfl⟩

theorem test_witness_UndefinedRecordIsNeverCleared : ({ ready 0x3C4 with undefSeen := some ⟨.status, 0xC1⟩ } : State).undefSeen =
    some ⟨.status, 0xC1⟩ ∧ step { ready 0x3C4 with undefSeen := some ⟨.status, 0xC1⟩ } =
    .next { ready 0x3C4 with pc := 1, result := .undefined ⟨.status, 0xF1⟩, undefSeen := some ⟨.status, 0xC1⟩ } := ⟨rfl, rfl⟩

/-- The pointer at the last cell, and one past it. -/
theorem test_witness_WordSelectTable : (13 : BitVec 4).toNat < 14 ∧ WordSel.field .wp 13 = some ⟨0, 13⟩ ∧
    WordSel.field .p 0 = some ⟨0, 0⟩ := by decide

theorem test_witness_RangeStaysInTheRegister : WordSel.field .p 13 = some ⟨13, 13⟩ ∧ WordSel.field .p 14 = none ∧
    WordSel.field .wp 15 = none ∧ WordSel.field .ms 15 = some ⟨3, 13⟩ := by decide

/-- The whole register and a one-cell field, for `AddPrimitiveLaw`, `SubtractPrimitiveLaw`, `AddThenSubtractReproduces` and
`CompareEdges`. -/
theorem test_witness_primitive_fields : (⟨0, 13⟩ : Field).lo ≤ (⟨0, 13⟩ : Field).hi ∧ (⟨0, 13⟩ : Field).hi < 14 ∧
    (⟨13, 13⟩ : Field).lo ≤ (⟨13, 13⟩ : Field).hi ∧ (⟨13, 13⟩ : Field).hi < 14 ∧
    (⟨0, 13⟩ : Field).has 0 = true ∧ (⟨0, 13⟩ : Field).has 13 = true := by decide

theorem test_witness_CompareEdges : (∀ i, (⟨0, 13⟩ : Field).has i = true → Reg.zero.cell i = 0) ∧
    (⟨3, 12⟩ : Field).has 12 = true ∧ (digits 05000000001688).cell 12 ≠ 0 := ⟨by simp, by decide, by decide⟩

/-- The hypothesis of every statement about type C: a range for the field, at the first and the last pointer and without one.
Of `AdditionsSumTheField`, `SubtractionsTakeTheField`, `NegCMakesTheTensComplement`, `NegCM1MakesTheNinesComplement`,
`CompareGeTestsTheField`, `AtLeastOneTestsTheField`, `ZeroTestsTheField`, `ClearsZeroTheField`, `CopiesMoveTheField`,
`ExchangesSwapTheField`, `LeftShiftMultipliesByTen`, `RightShiftsDivideByTen`, `IncrementsAddOne`, `DecrementsTakeOne`. -/
theorem test_witness_type_C_fields : WordSel.field .wp { start with p := 13 }.p = some ⟨0, 13⟩ ∧
    WordSel.field .p { start with p := 0 }.p = some ⟨0, 0⟩ ∧ WordSel.field .m { start with p := 15 }.p = some ⟨3, 12⟩ ∧
    (⟨3, 12⟩ : Field).has 3 = true ∧ (⟨3, 12⟩ : Field).has 12 = true ∧ (⟨3, 12⟩ : Field).has 13 = false := by decide

theorem test_witness_IncrementsAddOne : WordSel.field .p start.p = some ⟨5, 5⟩ ∧
    (∀ i, (⟨5, 5⟩ : Field).has i = true → start.a.cell i = 9) ∧ runs (.incA .p) start (fun t => t.cy) = true :=
  ⟨by decide, by intro i h; have : i = 5 := by simp [Field.has] at h; omega
                 subst this; decide, by decide⟩

theorem test_witness_DecrementsTakeOne : WordSel.field .p start.p = some ⟨5, 5⟩ ∧ start.c.num ⟨5, 5⟩ = 0 ∧
    runs (.decC .p) start (fun t => t.cy && t.c.cell 5 = 9) = true := by decide

theorem test_witness_TypeCTouchesOnlyTheField : (Instr.aAddBToA .wp).wordSel = some .wp ∧
    WordSel.field .wp { start with p := 13 }.p = some ⟨0, 13⟩ ∧ WordSel.field .wp { start with p := 14 }.p = none := by decide

/-- The last flag number of each kind: for `StatusInstructionsWriteTheirFlags`, `StatusTestCopiesTheFlag` and
`BadFlagNumberRaisesUndefinedOpcode`. -/
theorem test_witness_flag_numbers : (0 : BitVec 4).toNat < 12 ∧ (11 : BitVec 4).toNat < 12 ∧ 12 ≤ (12 : BitVec 4).toNat ∧
    12 ≤ (15 : BitVec 4).toNat ∧ runs (.setS 11) start (fun t => t.status = 0x800) = true ∧
    runs (.resetS 12) start (fun t => t.result = .undefined ⟨.status, 0xC9⟩) = true := by decide

/-- Each clause at its boundary: digit 9 at cells 0 and 13, constant 10, pointer 14. -/
theorem test_witness_LoadConstWritesTheCellAtP : (9 : BitVec 4).toNat < 10 ∧ 10 ≤ (10 : BitVec 4).toNat ∧
    ({ start with p := 13 } : State).p.toNat < 14 ∧ 14 ≤ ({ start with p := 14 } : State).p.toNat ∧
    runs (.loadConst 9) { start with p := 13 } (fun t => t.c.cell 13 = 9 && t.p = 12) = true ∧
    runs (.loadConst 9) { start with p := 0 } (fun t => t.c.cell 0 = 9 && t.p = 15) = true := by decide

theorem test_witness_AuxiliaryStorageHoldsWhatWasWritten : (busy 0).bank.toNat < 10 ∧ (8 : Nat) < 10 ∧ 8 ≠ (busy 0).bank.toNat ∧
    runs .cToData (busy 0) (fun t => t.aux[9] = stacked.c && t.aux[8] = Reg.zero) = true := by decide

/-- The state a step hands to `JSB` and to `BRANCH`: success so far, the offset advanced, carry clear or set. -/
theorem test_witness_JsbSavesTheOffsetAndJumps : ((busy 0x101).beginCycle 0x101).result = .success ∧
    runs (.jsb 0x40) ((busy 0x101).beginCycle 0x101) (fun t => t.pc = 0x240 && t.ret = 0x00) = true := by decide

theorem test_witness_BranchTransfersOnCarryClear : ((busy 0x0EB).beginCycle 0x0EB).result = .success ∧
    runs (.branch 0x3A) ((busy 0x0EB).beginCycle 0x0EB) (fun t => t.pc = 0x23A) = true ∧
    runs (.branch 0x3A) { (busy 0x0EB).beginCycle 0x0EB with cy := true } (fun t => t.pc = 0x200 && !t.cy) = true := by decide

theorem test_witness_BankOutOfRangeIsNoOp : stacked.result = .success ∧ 10 ≤ ({ stacked with bank := 10 } : State).bank.toNat ∧
    10 ≤ ({ stacked with bank := 15 } : State).bank.toNat := by decide

/-- A cell, a location and a state in which every register and location is written, for `WholeRegisterTransfers` and
`ResetZeroesTheRecord`. -/
theorem test_witness_ResetZeroesTheRecord : (13 : Nat) < 14 ∧ (9 : Nat) < 10 ∧ (busy 0x304).hostReset.d = Reg.zero ∧
    (busy 0x304).hostReset.rom = [(0x2FF, 0x304)] := by decide

theorem test_witness_KeyOperationsActOnTheLatch : State.reset.kdn = false ∧ (busy 0).keyUp.key = 0x2A := by decide

end Sys2Proof.Tests
end

/-! # Bits 15:10 of a word take no part (R8, R52): decoding reads bits 9:0 only, and no operation looks at the memory -/

/-! ## Decoding -/

namespace Sys2Proof

section UpperBits

variable {w v : Word} (h : w.extractLsb' 0 10 = v.extractLsb' 0 10)

include h

/-- Words that agree in bits 9:0 agree in every field that lies there; all ten fields of an instruction do (R70 to R76). -/
theorem extractLsb'_congr (start len : Nat) (hlen : start + len ≤ 10) :
    w.extractLsb' start len = v.extractLsb' start len := by
  ext i hi
  have bit := congrArg (fun b => b.getLsbD (start + i)) h
  have : start + i < 10 := by omega
  simpa [BitVec.getLsbD_extractLsb', this, hi] using bit

theorem tagOf_congr : tagOf w = tagOf v := extractLsb'_congr h 0 2 (by decide)
theorem clsOf_congr : clsOf w = clsOf v := extractLsb'_congr h 2 2 (by decide)
theorem fragOf_congr : fragOf w = fragOf v := extractLsb'_congr h 2 8 (by decide)
theorem wsOf_congr : wsOf w = wsOf v := extractLsb'_congr h 2 3 (by decide)
theorem opOf_congr : opOf w = opOf v := extractLsb'_congr h 5 5 (by decide)
theorem vOf_congr : vOf w = vOf v := extractLsb'_congr h 4 6 (by decide)
theorem subOf_congr : subOf w = subOf v := extractLsb'_congr h 4 2 (by decide)
theorem nOf_congr : nOf w = nOf v := extractLsb'_congr h 6 4 (by decide)
theorem selOf_congr : selOf w = selOf v := extractLsb'_congr h 4 3 (by decide)
theorem gOf_congr : gOf w = gOf v := extractLsb'_congr h 7 3 (by decide)

theorem undefinedOpcode_congr (cls : OpClass) : undefinedOpcode cls w = undefinedOpcode cls v := by
  simp only [undefinedOpcode, fragOf_congr h]

theorem decodeTypeC_congr : decodeTypeC w = decodeTypeC v := by
  simp only [decodeTypeC, opOf_congr h, wsOf_congr h]

theorem decodeStatus_congr : decodeStatus w = decodeStatus v := by
  simp only [decodeStatus, subOf_congr h, nOf_congr h, undefinedOpcode_congr h]

theorem decodePointer_congr : decodePointer w = decodePointer v := by
  simp only [decodePointer, subOf_congr h, nOf_congr h, undefinedOpcode_congr h]

theorem decodeDataEntry_congr : decodeDataEntry w = decodeDataEntry v := by
  simp only [decodeDataEntry, subOf_congr h, nOf_congr h, selOf_congr h, gOf_congr h, vOf_congr h, undefinedOpcode_congr h]

theorem decodeRomMisc_congr : decodeRomMisc w = decodeRomMisc v := by
  simp only [decodeRomMisc, vOf_congr h, selOf_congr h, gOf_congr h, undefinedOpcode_congr h]

theorem decodeTypeA_congr : decodeTypeA w = decodeTypeA v := by
  simp only [decodeTypeA, clsOf_congr h, decodeRomMisc_congr h, decodeStatus_congr h, decodeDataEntry_congr h,
    decodePointer_congr h]

/-- Decoding reads bits 9:0 only (R8). -/
theorem decode_congr : decode w = decode v := by
  simp only [decode, tagOf_congr h, fragOf_congr h, decodeTypeA_congr h, decodeTypeC_congr h]

end UpperBits

end Sys2Proof

/-! ## The instruction memory replaced -/

namespace Sys2Proof.Machine

/-- The instruction memory replaced and nothing else. -/
def State.setRom (s : State) (mem : Memory) : State := { s with rom := mem }

theorem State.placeWord_eq_setRom (s : State) (w : Word) : s.placeWord w = s.setRom (s.rom.write s.pc.toNat w) := rfl

/-- Of two replacements the last stands. -/
theorem mapNext_setRom_setRom (mem mem' : Memory) (e : Exec) :
    mapNext (·.setRom mem') (mapNext (·.setRom mem) e) = mapNext (·.setRom mem') e := by
  cases e <;> rfl

/-- The common steps do not look at the instruction memory: they are given the word. -/
theorem State.beginCycle_setRom (s : State) (mem : Memory) (w : Word) :
    (s.setRom mem).beginCycle w = (s.beginCycle w).setRom mem := by
  unfold State.beginCycle State.clearCarry
  split <;> rfl

/-- The common steps read the type tag of the word and no other bit (R104). -/
theorem State.beginCycle_congr (s : State) {w v : Word} (h : tagOf w = tagOf v) : s.beginCycle w = s.beginCycle v := by
  simp only [State.beginCycle, State.clearCarry, h]

theorem State.auxWrite_setRom (s : State) (mem : Memory) (bank : BitVec 4) (x : Reg) :
    (s.setRom mem).auxWrite bank x = (s.auxWrite bank x).setRom mem := by
  rw [State.auxWrite_eq, State.auxWrite_eq]
  rfl

/-- A type-C instruction does not look at the instruction memory if its operation over the field does not. -/
theorem typeC_setRom (ws : WordSel) (s : State) (mem : Memory) {op : Field → State → State}
    (hop : ∀ fl t, op fl (t.setRom mem) = (op fl t).setRom mem) :
    typeC ws (s.setRom mem) op = mapNext (·.setRom mem) (typeC ws s op) := by
  have field : ws.field (s.setRom mem).p = ws.field s.p := rfl
  unfold typeC
  rw [field]
  split
  next => rfl
  next fl _ => exact congrArg Host.Outcome.next (hop fl { s with ws := ws })

/-- No instruction reads or writes the instruction memory (R50): its operation is the same under every image. -/
theorem exec_setRom (i : Instr) (s : State) (mem : Memory) :
    exec i (s.setRom mem) = mapNext (·.setRom mem) (exec i s) := by
  cases i with
  | ifBEq0 ws | ifAGeC ws | ifCGe1 ws | ifCEq0 ws | ifAGeB ws | ifAGe1 ws
  | clrA ws | clrB ws | clrC ws | bToC ws | aToB ws | cToA ws | bExchC ws | aExchB ws | aExchC ws
  | shlA ws | shrA ws | shrB ws | shrC ws
  | aAddCToC ws | incC ws | cAddCToC ws | aAddBToA ws | aAddCToA ws | incA ws
  | negC ws | negCM1 ws | aSubCToC ws | decC ws | aSubBToA ws | aSubCToA ws | decA ws =>
    exact typeC_setRom ws s mem fun _ _ => rfl
  | setS n => simp only [exec, execSetS]; split <;> rfl
  | testS n => simp only [exec, execTestS]; split <;> rfl
  | resetS n => simp only [exec, execResetS]; split <;> rfl
  | loadConst n =>
    have pointer : (s.setRom mem).p = s.p := rfl
    simp only [exec, execLoadConst, pointer]
    split
    · rfl
    · split <;> rfl
  | dataToC =>
    have read : (s.setRom mem).auxRead (s.setRom mem).bank = s.auxRead s.bank := rfl
    simp only [exec, execDataToC, read]
    split <;> rfl
  | cToData => exact congrArg Host.Outcome.next (s.auxWrite_setRom mem s.bank s.c)
  | branch t =>
    have carry : (s.setRom mem).cy = s.cy := rfl
    simp only [exec, execBranch, carry]
    split <;> rfl
  | clearStatus | setP | decP | testP | incP | displayToggle | cExchM | cToStack | stackToA | displayOff | mToC
  | downRotate | clearRegs | nop | selRom | ret | keysToRom | cToAddr | jsb => rfl

/-! ## The step of a given word -/

/-- The cycle after the fetch: what a step does once it has fetched `w` (R102 to R107). -/
def State.stepOn (s : State) (w : Word) : Exec :=
  match decode w with
  | .ok i => exec i (s.beginCycle w)
  | .error u => .next ((s.beginCycle w).raiseUndefinedOpcode u)

theorem step_eq_stepOn (s : State) : step s = s.stepOn s.fetch := rfl

/-- After the fetch a step does not look at the instruction memory. -/
theorem State.stepOn_setRom (s : State) (mem : Memory) (w : Word) :
    (s.setRom mem).stepOn w = mapNext (·.setRom mem) (s.stepOn w) := by
  unfold State.stepOn
  rw [s.beginCycle_setRom mem w]
  split
  · exact exec_setRom _ _ mem
  · rfl

/-- After the fetch a step reads bits 9:0 of the word only (R8). -/
theorem State.stepOn_congr (s : State) {w v : Word} (h : w.extractLsb' 0 10 = v.extractLsb' 0 10) :
    s.stepOn w = s.stepOn v := by
  unfold State.stepOn
  rw [decode_congr h, s.beginCycle_congr (tagOf_congr h)]

/-- A step at a placed word is the step of that word, up to the instruction memory it was placed in. -/
theorem mapNext_setRom_step_placeWord (s : State) (mem : Memory) (w : Word) (hwf : Memory.wf s.rom = true) :
    mapNext (·.setRom mem) (step (s.placeWord w)) = mapNext (·.setRom mem) (s.stepOn w) := by
  rw [step_eq_stepOn, s.fetch_placeWord w hwf, s.placeWord_eq_setRom, State.stepOn_setRom, mapNext_setRom_setRom]

/-- Settles O3: decoding and the cycle after the fetch read bits 9:0 only, and nothing after the fetch looks at the
instruction memory, which is all that the two placed words can make differ. -/
theorem upperBitsNeverInfluence : Obligations.UpperBitsNeverInfluence := by
  intro s w v hwf h
  refine ⟨decode_congr h, ?_⟩
  calc mapNext (·.setRom s.rom) (step (s.placeWord w))
      = mapNext (·.setRom s.rom) (s.stepOn w) := mapNext_setRom_step_placeWord s s.rom w hwf
    _ = mapNext (·.setRom s.rom) (s.stepOn v) := by rw [s.stepOn_congr h]
    _ = mapNext (·.setRom s.rom) (step (s.placeWord v)) := (mapNext_setRom_step_placeWord s s.rom v hwf).symm

end Sys2Proof.Machine

/-! # What an instruction can write, and what every step keeps (10_state.md) -/

namespace Sys2Proof.Machine

/-! ## The effect of an instruction -/

/-- What an instruction that completes makes of the state `s` it runs on: the fields that it may write, one constructor for each
way. A value is spelled out where an invariant or a flag statement needs it; every other new value is left free. -/
inductive Effect (s : State) : Instr → State → Prop where
  /-- Type C writes WS and, of the rest, at most A, B, C and CY (R183, R184); CY only if it gives a carry (R33). -/
  | typeC {i : Instr} (ws : WordSel) (a b c : Reg) (carry : Bool) (mode : i.wordSel = some ws)
      (keeps : i.givesCarry = false → carry = s.cy) :
      Effect s i { s with a := a, b := b, c := c, cy := carry, ws := ws }
  /-- A flag number above 11 raises the undefined opcode (R88, R204). -/
  | undefinedFlag {i : Instr} (n : BitVec 4) (u : UndefinedOpcode) (mem : i ∈ [Instr.setS n, .testS n, .resetS n]) :
      Effect s i (s.raiseUndefinedOpcode u)
  | setS (n : BitVec 4) (lt : n.toNat < 12) : Effect s (.setS n) { s with status := setFlag s.status n true }
  | resetS (n : BitVec 4) (lt : n.toNat < 12) : Effect s (.resetS n) { s with status := setFlag s.status n false }
  | clearStatus : Effect s .clearStatus { s with status := 0 }
  | testS (n : BitVec 4) (carry : Bool) : Effect s (.testS n) { s with cy := carry }
  | testP (n : BitVec 4) (carry : Bool) : Effect s (.testP n) { s with cy := carry }
  | setP (n : BitVec 4) : Effect s (.setP n) { s with p := n }
  | decP (p : BitVec 4) : Effect s .decP { s with p := p }
  | incP (p : BitVec 4) : Effect s .incP { s with p := p }
  | loadConst (n : BitVec 4) (c : Reg) (p : BitVec 4) : Effect s (.loadConst n) { s with c := c, p := p }
  | displayToggle (disp : Bool) : Effect s .displayToggle { s with disp := disp }
  | displayOff (disp : Bool) : Effect s .displayOff { s with disp := disp }
  | cExchM (c m : Reg) : Effect s .cExchM { s with c := c, m := m }
  | cToStack (d e f : Reg) : Effect s .cToStack { s with d := d, e := e, f := f }
  | stackToA (a d e : Reg) : Effect s .stackToA { s with a := a, d := d, e := e }
  | mToC (c : Reg) : Effect s .mToC { s with c := c }
  | downRotate (c d e f : Reg) : Effect s .downRotate { s with c := c, d := d, e := e, f := f }
  | clearRegs (a b c d e f m : Reg) :
      Effect s .clearRegs { s with a := a, b := b, c := c, d := d, e := e, f := f, m := m }
  | dataToC (c : Reg) : Effect s .dataToC { s with c := c }
  | nop : Effect s .nop s
  | selRom (g : BitVec 3) (pc : BitVec 11) : Effect s (.selRom g) { s with pc := pc }
  | ret (pc : BitVec 11) : Effect s .ret { s with pc := pc }
  | keysToRom (pc : BitVec 11) : Effect s .keysToRom { s with pc := pc }
  /-- The bank is a digit, so it is below 10 (R43, R244). -/
  | cToAddr (digit : Digit) : Effect s .cToAddr { s with bank := BitVec.ofNat 4 digit.val }
  | cToData (aux : Vector Reg 10) : Effect s .cToData { s with aux := aux }
  | jsb (target ret : BitVec 8) (pc : BitVec 11) : Effect s (.jsb target) { s with ret := ret, pc := pc }
  /-- `BRANCH` clears CY itself (R261). -/
  | branch (target : BitVec 8) (pc : BitVec 11) : Effect s (.branch target) { s with pc := pc, cy := false }

section

variable {s t : State} {i : Instr}

/-- A type-C instruction has the effect of its class if its operation over the field writes at most A, B, C and CY. -/
theorem typeC_effect {ws : WordSel} {op : Field → State → State} (h : typeC ws s op = .next t)
    (mode : i.wordSel = some ws)
    (hop : ∀ fl u, op fl u = { u with a := (op fl u).a, b := (op fl u).b, c := (op fl u).c, cy := (op fl u).cy })
    (hcy : i.givesCarry = false → ∀ fl u, (op fl u).cy = u.cy) : Effect s i t := by
  obtain ⟨fl, -, rfl⟩ := (typeC_next_iff ws s t op).mp h
  rw [hop]
  exact .typeC ws _ _ _ _ mode fun hi => hcy hi fl _

/-- An instruction that answers a next state has its effect. -/
theorem exec_effect (h : exec i s = .next t) : Effect s i t := by
  cases i with
  | clrA ws | clrB ws | clrC ws | bToC ws | aToB ws | cToA ws | bExchC ws | aExchB ws | aExchC ws
  | shlA ws | shrA ws | shrB ws | shrC ws =>
    exact typeC_effect h rfl (fun _ _ => rfl) (fun _ _ _ => rfl)
  | ifBEq0 ws | ifAGeC ws | ifCGe1 ws | ifCEq0 ws | ifAGeB ws | ifAGe1 ws
  | aAddCToC ws | incC ws | cAddCToC ws | aAddBToA ws | aAddCToA ws | incA ws
  | negC ws | negCM1 ws | aSubCToC ws | decC ws | aSubBToA ws | aSubCToA ws | decA ws =>
    exact typeC_effect h rfl (fun _ _ => rfl) nofun
  | setS n =>
    simp only [exec, execSetS] at h
    split at h <;> cases h
    next ok => exact .setS n (by simpa [flagNumberOk] using ok)
    next => exact .undefinedFlag n _ (by simp)
  | testS n =>
    simp only [exec, execTestS] at h
    split at h <;> cases h
    next => exact .testS n _
    next => exact .undefinedFlag n _ (by simp)
  | resetS n =>
    simp only [exec, execResetS] at h
    split at h <;> cases h
    next ok => exact .resetS n (by simpa [flagNumberOk] using ok)
    next => exact .undefinedFlag n _ (by simp)
  | loadConst n =>
    simp only [exec, execLoadConst] at h
    split at h
    · cases h
    · split at h <;> cases h
      exact .loadConst n _ _
  | dataToC =>
    simp only [exec, execDataToC] at h
    split at h <;> cases h
    · exact .dataToC _
    · exact .dataToC s.c
  | cToData =>
    simp only [exec, execCToData, State.auxWrite_eq] at h
    cases h
    exact .cToData _
  | branch target =>
    simp only [exec, execBranch] at h
    split at h <;> cases h
    · exact .branch target s.pc
    · exact .branch target _
  | clearStatus => cases h; exact .clearStatus
  | setP n => cases h; exact .setP n
  | decP => cases h; exact .decP _
  | testP n => cases h; exact .testP n _
  | incP => cases h; exact .incP _
  | displayToggle => cases h; exact .displayToggle _
  | cExchM => cases h; exact .cExchM _ _
  | cToStack => cases h; exact .cToStack _ _ _
  | stackToA => cases h; exact .stackToA _ _ _
  | displayOff => cases h; exact .displayOff _
  | mToC => cases h; exact .mToC _
  | downRotate => cases h; exact .downRotate _ _ _ _
  | clearRegs => cases h; exact .clearRegs _ _ _ _ _ _ _
  | nop => cases h; exact .nop
  | selRom g => cases h; exact .selRom g _
  | ret => cases h; exact .ret _
  | keysToRom => cases h; exact .keysToRom _
  | cToAddr => cases h; exact .cToAddr _
  | jsb target => cases h; exact .jsb target _ _

/-- What a step that answers a next state does: on the state the common steps leave, the effect of the decoded instruction, or
the report of the undefined opcode. -/
theorem step_effect (h : step s = .next t) :
    (∃ i, decode s.fetch = .ok i ∧ Effect (s.beginCycle s.fetch) i t) ∨
    (∃ u, decode s.fetch = .error u ∧ t = (s.beginCycle s.fetch).raiseUndefinedOpcode u) := by
  obtain ⟨i, hi, hs⟩ | ⟨u, hu, hs⟩ := step_cases s
  · exact .inl ⟨i, hi, exec_effect (hs.symm.trans h)⟩
  · rw [hs] at h
    cases h
    exact .inr ⟨u, hu, rfl⟩

end

/-! ## The invariant -/

section

variable {s t : State} {i : Instr}

/-- The common steps keep the invariant: they write none of its fields but `result`, which becomes success. -/
theorem State.Inv.beginCycle (hs : s.Inv) (w : Word) : (s.beginCycle w).Inv := by
  obtain ⟨rom, bank, -⟩ := hs
  exact ⟨by simpa using rom, by simpa using bank, by simp⟩

/-- A report of an undefined opcode keeps the invariant: it goes on record with the report (R274). -/
theorem State.Inv.raiseUndefinedOpcode (hs : s.Inv) (u : UndefinedOpcode) : (s.raiseUndefinedOpcode u).Inv := by
  obtain ⟨rom, bank, -⟩ := hs
  refine ⟨rom, bank, fun _ => ?_⟩
  cases h : s.undefSeen <;> simp [h]

/-- Every effect keeps the invariant: only `C_TO_ADDR` writes BANK and only a report writes `result`. -/
theorem State.Inv.effect (hs : s.Inv) (he : Effect s i t) : t.Inv := by
  cases he with
  | undefinedFlag n u => exact hs.raiseUndefinedOpcode u
  | cToAddr digit =>
    obtain ⟨rom, -, record⟩ := hs
    exact ⟨rom, by simp only [BitVec.toNat_ofNat]; omega, record⟩
  | _ => exact hs

end

/-- Settles O11: the common steps keep the invariant, and so do every instruction's effect and the report of an undefined
opcode. -/
theorem stepKeepsTheInvariant : Obligations.StepKeepsTheInvariant := by
  intro s t hs h
  obtain ⟨i, -, he⟩ | ⟨u, -, rfl⟩ := step_effect h
  · exact (hs.beginCycle _).effect he
  · exact (hs.beginCycle _).raiseUndefinedOpcode u

/-- Settles O12: the memory lists no word, BANK is 0 and nothing has been reported. -/
theorem resetMeetsTheInvariant : Obligations.ResetMeetsTheInvariant :=
  ⟨State.reset_rom_wf, by decide, fun h => absurd rfl h⟩

/-! ## The carry (R33 to R35) -/

/-- A word of type D is a `BRANCH` (R73). -/
theorem decode_of_tagOf_three {w : Word} (h : tagOf w = 3) : decode w = .ok (.branch (fragOf w)) := by
  simp [decode, h]

/-- Step 4 hides the carry from every word that is not of type D (R104). -/
theorem State.beginCycle_setCarry (s : State) (carry : Bool) {w : Word} (h : tagOf w ≠ 3) :
    { s with cy := carry }.beginCycle w = s.beginCycle w := by
  simp only [State.beginCycle, State.clearCarry, if_neg h]
  rfl

theorem State.beginCycle_cy_eq_false (s : State) {w : Word} (h : tagOf w ≠ 3) : (s.beginCycle w).cy = false := by
  rw [State.beginCycle_cy, if_neg h]

/-- An instruction that gives no carry leaves CY 0 where it finds it 0, and a `BRANCH` leaves it 0 in any case. -/
theorem Effect.cy_eq_false {s t : State} {i : Instr} (he : Effect s i t) (hi : i.givesCarry = false)
    (hs : s.cy = false ∨ ∃ target, i = .branch target) : t.cy = false := by
  obtain hs | ⟨target, rfl⟩ := hs
  · cases he with
    | typeC ws a b c carry mode keeps => exact (keeps hi).trans hs
    | testS | testP => cases hi
    | branch => rfl
    | _ => exact hs
  · cases he with
    | typeC ws a b c carry mode => cases mode
    | undefinedFlag n u mem => simp at mem
    | branch => rfl

/-- Settles O13: step 4 hides the carry from all but type D, and after it only the instructions that give a carry set it. -/
theorem carryLivesForOneInstruction : Obligations.CarryLivesForOneInstruction := by
  refine ⟨fun s carry htag => ?_, fun s t h hgives => ?_⟩
  · have fetch : { s with cy := carry }.fetch = s.fetch := rfl
    simp only [step, fetch, s.beginCycle_setCarry carry htag]
  · obtain ⟨i, hi, he⟩ | ⟨u, hu, rfl⟩ := step_effect h
    · refine he.cy_eq_false (hgives i hi) ?_
      by_cases htag : tagOf s.fetch = 3
      · rw [decode_of_tagOf_three htag] at hi
        cases hi
        exact .inr ⟨_, rfl⟩
      · exact .inl (s.beginCycle_cy_eq_false htag)
    · have htag : tagOf s.fetch ≠ 3 := fun htag => by simp [decode_of_tagOf_three htag] at hu
      exact s.beginCycle_cy_eq_false htag

/-! ## The word-select field (R45) -/

/-- WS replaced and nothing else. -/
def State.setWs (s : State) (ws : WordSel) : State := { s with ws := ws }

theorem State.beginCycle_setWs (s : State) (ws : WordSel) (w : Word) :
    (s.setWs ws).beginCycle w = (s.beginCycle w).setWs ws := by
  unfold State.beginCycle State.clearCarry
  split <;> rfl

theorem State.auxWrite_setWs (s : State) (ws : WordSel) (bank : BitVec 4) (x : Reg) :
    (s.setWs ws).auxWrite bank x = (s.auxWrite bank x).setWs ws := by
  rw [State.auxWrite_eq, State.auxWrite_eq]
  rfl

/-- Type C overwrites WS before it reads anything, and no other instruction reads it: up to WS the answer is the same. -/
theorem exec_setWs (i : Instr) (s : State) (ws out : WordSel) :
    mapNext (·.setWs out) (exec i (s.setWs ws)) = mapNext (·.setWs out) (exec i s) := by
  cases i with
  | setS n | testS n | resetS n =>
    simp only [exec, execSetS, execTestS, execResetS]
    split <;> rfl
  | loadConst n =>
    have pointer : (s.setWs ws).p = s.p := rfl
    simp only [exec, execLoadConst, pointer]
    split
    · rfl
    · split <;> rfl
  | dataToC =>
    have read : (s.setWs ws).auxRead (s.setWs ws).bank = s.auxRead s.bank := rfl
    simp only [exec, execDataToC, read]
    split <;> rfl
  | cToData =>
    have write : (s.setWs ws).auxWrite (s.setWs ws).bank (s.setWs ws).c = (s.auxWrite s.bank s.c).setWs ws :=
      s.auxWrite_setWs ws s.bank s.c
    simp only [exec, execCToData, write]
    rfl
  | branch target =>
    have carry : (s.setWs ws).cy = s.cy := rfl
    simp only [exec, execBranch, carry]
    split <;> rfl
  | _ => rfl

/-- Settles O14: the common steps carry WS along, and no instruction's answer depends on it. -/
theorem wordSelectFieldInfluencesNothing : Obligations.WordSelectFieldInfluencesNothing := by
  intro s ws
  change mapNext (·.setWs .p) (step (s.setWs ws)) = mapNext (·.setWs .p) (step s)
  have fetch : (s.setWs ws).fetch = s.fetch := rfl
  simp only [step, fetch, s.beginCycle_setWs ws]
  split
  next i _ => exact exec_setWs i (s.beginCycle s.fetch) ws .p
  next => rfl

/-! ## The writers of each part of the state (R23 to R25, R38 to R48) -/

namespace Effect

variable {s t : State} {i : Instr} (he : Effect s i t)

include he

theorem key_eq : t.key = s.key := by cases he <;> rfl

theorem kdn_eq : t.kdn = s.kdn := by cases he <;> rfl

theorem rom_eq : t.rom = s.rom := by cases he <;> rfl

theorem writer_of_a (h : t.a ≠ s.a) : i.wordSel ≠ none ∨ i ∈ [Instr.stackToA, .clearRegs] := by
  cases he with
  | typeC ws a b c carry mode => exact .inl (by simp [mode])
  | stackToA | clearRegs => exact .inr (by simp)
  | _ => exact absurd rfl h

theorem writer_of_b (h : t.b ≠ s.b) : i.wordSel ≠ none ∨ i = .clearRegs := by
  cases he with
  | typeC ws a b c carry mode => exact .inl (by simp [mode])
  | clearRegs => exact .inr rfl
  | _ => exact absurd rfl h

theorem writer_of_c (h : t.c ≠ s.c) :
    i.wordSel ≠ none ∨ (∃ n, i = .loadConst n) ∨ i ∈ [Instr.cExchM, .mToC, .downRotate, .dataToC, .clearRegs] := by
  cases he with
  | typeC ws a b c carry mode => exact .inl (by simp [mode])
  | loadConst n => exact .inr (.inl ⟨n, rfl⟩)
  | cExchM | mToC | downRotate | dataToC | clearRegs => exact .inr (.inr (by simp))
  | _ => exact absurd rfl h

theorem writer_of_ws (h : t.ws ≠ s.ws) : i.wordSel = some t.ws := by
  cases he with
  | typeC ws a b c carry mode => exact mode
  | _ => exact absurd rfl h

theorem writer_of_m (h : t.m ≠ s.m) : i ∈ [Instr.cExchM, .clearRegs] := by
  cases he with
  | cExchM | clearRegs => simp
  | _ => exact absurd rfl h

theorem writer_of_stack (h : t.d ≠ s.d ∨ t.e ≠ s.e ∨ t.f ≠ s.f) :
    i ∈ [Instr.cToStack, .stackToA, .downRotate, .clearRegs] := by
  cases he with
  | cToStack | stackToA | downRotate | clearRegs => simp
  | _ => simp at h

theorem writer_of_aux (h : t.aux ≠ s.aux) : i = .cToData := by
  cases he with
  | cToData => rfl
  | _ => exact absurd rfl h

theorem writer_of_bank (h : t.bank ≠ s.bank) : i = .cToAddr := by
  cases he with
  | cToAddr => rfl
  | _ => exact absurd rfl h

theorem writer_of_disp (h : t.disp ≠ s.disp) : i ∈ [Instr.displayToggle, .displayOff] := by
  cases he with
  | displayToggle | displayOff => simp
  | _ => exact absurd rfl h

theorem writer_of_ret (h : t.ret ≠ s.ret) : ∃ target, i = .jsb target := by
  cases he with
  | jsb target => exact ⟨target, rfl⟩
  | _ => exact absurd rfl h

theorem writer_of_p (h : t.p ≠ s.p) : i = .decP ∨ i = .incP ∨ ∃ n, i = .setP n ∨ i = .loadConst n := by
  cases he with
  | decP => exact .inl rfl
  | incP => exact .inr (.inl rfl)
  | setP n => exact .inr (.inr ⟨n, .inl rfl⟩)
  | loadConst n => exact .inr (.inr ⟨n, .inr rfl⟩)
  | _ => exact absurd rfl h

theorem writer_of_flag {k : BitVec 4} (h : flagAt t.status k ≠ flagAt s.status k) :
    i = .clearStatus ∨ i = .setS k ∨ i = .resetS k := by
  cases he with
  | clearStatus => exact .inl rfl
  | setS n lt =>
    have same : k = n := by
      by_contra hne
      exact h ((flagAt_setFlag s.status n k _ lt).trans (if_neg hne))
    exact .inr (.inl (by rw [same]))
  | resetS n lt =>
    have same : k = n := by
      by_contra hne
      exact h ((flagAt_setFlag s.status n k _ lt).trans (if_neg hne))
    exact .inr (.inr (by rw [same]))
  | _ => exact absurd rfl h

end Effect

/-- The common steps write no flag but flag 0 (R103). -/
theorem State.flagAt_beginCycle (s : State) (w : Word) {k : BitVec 4} (hk : k ≠ 0) :
    flagAt (s.beginCycle w).status k = flagAt s.status k := by
  rw [State.beginCycle_status, flagAt_setFlag _ _ _ _ (by decide), if_neg hk]

/-- Settles O16: the common steps write none of these parts, a report of an undefined opcode writes none either, and each
instruction writes the parts that its effect names. -/
theorem onlyNamedInstructionsWriteStorage : Obligations.OnlyNamedInstructionsWriteStorage := by
  intro s t h
  obtain ⟨i, hi, he⟩ | ⟨u, -, rfl⟩ := step_effect h
  · refine ⟨by simpa using he.key_eq, by simpa using he.kdn_eq, by simpa using he.rom_eq,
      fun a => ⟨i, hi, he.writer_of_a (by simpa using a)⟩, fun b => ⟨i, hi, he.writer_of_b (by simpa using b)⟩,
      fun c => ⟨i, hi, he.writer_of_c (by simpa using c)⟩, fun ws => ⟨i, hi, he.writer_of_ws (by simpa using ws)⟩,
      fun m => ⟨i, he.writer_of_m (by simpa using m), hi⟩,
      fun stack => ⟨i, he.writer_of_stack (by simpa using stack), hi⟩,
      fun aux => he.writer_of_aux (by simpa using aux) ▸ hi, fun bank => he.writer_of_bank (by simpa using bank) ▸ hi,
      fun disp => ⟨i, he.writer_of_disp (by simpa using disp), hi⟩, fun ret => ?_, fun p => ?_, fun k hk flag => ?_⟩
    · obtain ⟨target, rfl⟩ := he.writer_of_ret (by simpa using ret)
      exact ⟨target, hi⟩
    · simpa [hi] using he.writer_of_p (by simpa using p)
    · simpa [hi] using he.writer_of_flag (s.flagAt_beginCycle s.fetch hk ▸ flag)
  -- The report writes `result` and `undefSeen` only, so the premise of every clause fails.
  · simp +contextual [-State.beginCycle_status, State.flagAt_beginCycle]

end Sys2Proof.Machine

/-! # Auxiliary storage (20_memory.md section 2: R56 to R58, R64) -/

namespace Sys2Proof.Machine

/-! ## The two accesses -/

section

variable {s : State}

/-- Reading with a bank of 0..9 loads C with the location of the bank (R56, R230). -/
theorem exec_dataToC_of_lt (h : s.bank.toNat < 10) :
    exec .dataToC s = .next { s with c := s.aux[s.bank.toNat] } := by
  have read : s.auxRead s.bank = some s.aux[s.bank.toNat] := by simp [State.auxRead_eq, h]
  simp only [exec, execDataToC, read]

/-- Reading with a bank of 10..15 is no operation (R58). -/
theorem exec_dataToC_of_ge (h : 10 ≤ s.bank.toNat) : exec .dataToC s = .next s := by
  have read : s.auxRead s.bank = none := by simp [State.auxRead_eq, h]
  simp only [exec, execDataToC, read]

/-- Writing with a bank of 0..9 puts C in the location of the bank (R57, R245). -/
theorem exec_cToData_of_lt (h : s.bank.toNat < 10) :
    exec .cToData s = .next { s with aux := s.aux.set s.bank.toNat s.c } := by
  simp only [exec, execCToData, State.auxWrite_eq, dif_pos h]

/-- Writing with a bank of 10..15 is no operation (R58). -/
theorem exec_cToData_of_ge (h : 10 ≤ s.bank.toNat) : exec .cToData s = .next s := by
  simp only [exec, execCToData, State.auxWrite_eq, dif_neg h.not_gt]

/-- Reading where C was just written restores C, whatever it holds meanwhile (R64 (a)). -/
theorem exec_dataToC_set_aux (h : s.bank.toNat < 10) (x : Reg) :
    exec .dataToC { s with aux := s.aux.set s.bank.toNat s.c, c := x } =
      .next { s with aux := s.aux.set s.bank.toNat s.c } := by
  rw [exec_dataToC_of_lt (s := { s with aux := s.aux.set s.bank.toNat s.c, c := x }) h, Vector.getElem_set_self]

/-- The code of a step whose status is success is 0 (R106). -/
theorem State.stepCode_of_success (h : s.result = .success) : s.stepCode = 0 := by
  simp only [State.stepCode, h]

end

/-- Settles O50: the read gives the location of the bank, the write sets that location and no other, and the write keeps the
bank, so a read after it meets the location that was set. -/
theorem auxiliaryStorageHoldsWhatWasWritten : Obligations.AuxiliaryStorageHoldsWhatWasWritten := by
  intro s x h
  constructor
  · exact ⟨_, exec_dataToC_of_lt h, rfl, Vector.getElem?_eq_getElem h⟩
  · have others : ∀ k, k < 10 → k ≠ s.bank.toNat → (s.aux.set s.bank.toNat s.c)[k]? = s.aux[k]? :=
      fun k _ hne => Vector.getElem?_set_ne h hne.symm
    exact ⟨_, _, exec_cToData_of_lt h, rfl, Vector.getElem?_set_self h, others, exec_dataToC_set_aux h x, rfl⟩

/-- Settles O51: both accesses answer the state they run on, so its status stands. -/
theorem bankOutOfRangeIsNoOp : Obligations.BankOutOfRangeIsNoOp := fun s h =>
  ⟨⟨s, exec_dataToC_of_ge h, rfl, State.stepCode_of_success⟩, ⟨s, exec_cToData_of_ge h, rfl, State.stepCode_of_success⟩⟩

end Sys2Proof.Machine

/-! # The opcode map: fields, encodings and undefined words (30_encoding.md) -/

/-! ## Words and fields as numbers -/

namespace Sys2Proof

/-- Appending `y` below `x` weighs `x` by the width of `y`. -/
theorem toNat_append_eq_add {m n : Nat} (x : BitVec m) (y : BitVec n) :
    (x ++ y).toNat = x.toNat * 2 ^ n + y.toNat := by
  rw [BitVec.toNat_append, ← Nat.shiftLeft_add_eq_or_of_lt y.isLt, Nat.shiftLeft_eq]

section

variable (w : Word)

/-- Clearing bits 15:10 keeps the value of `I` (R8, R70). -/
theorem toNat_and_mask : (w &&& 0x03FF).toNat = w.toNat % 1024 := by
  rw [BitVec.toNat_and]
  exact Nat.and_two_pow_sub_one_eq_mod w.toNat 10

/-- A field of `len` bits from bit `start` upward, as a number. -/
theorem toNat_extractLsb'_eq (start len : Nat) :
    (w.extractLsb' start len).toNat = w.toNat / 2 ^ start % 2 ^ len := by
  rw [BitVec.extractLsb'_toNat, Nat.shiftRight_eq_div_pow]

theorem toNat_tagOf : (tagOf w).toNat = w.toNat % 4 := by simp [tagOf]
theorem toNat_clsOf : (clsOf w).toNat = w.toNat / 4 % 4 := toNat_extractLsb'_eq w 2 2
theorem toNat_fragOf : (fragOf w).toNat = w.toNat / 4 % 256 := toNat_extractLsb'_eq w 2 8
theorem toNat_wsOf : (wsOf w).toNat = w.toNat / 4 % 8 := toNat_extractLsb'_eq w 2 3
theorem toNat_opOf : (opOf w).toNat = w.toNat / 32 % 32 := toNat_extractLsb'_eq w 5 5
theorem toNat_vOf : (vOf w).toNat = w.toNat / 16 % 64 := toNat_extractLsb'_eq w 4 6
theorem toNat_subOf : (subOf w).toNat = w.toNat / 16 % 4 := toNat_extractLsb'_eq w 4 2
theorem toNat_nOf : (nOf w).toNat = w.toNat / 64 % 16 := toNat_extractLsb'_eq w 6 4
theorem toNat_selOf : (selOf w).toNat = w.toNat / 16 % 8 := toNat_extractLsb'_eq w 4 3
theorem toNat_gOf : (gOf w).toNat = w.toNat / 128 % 8 := toNat_extractLsb'_eq w 7 3

end

theorem toNat_encodeTypeC (op : BitVec 5) (ws : WordSel) :
    (encodeTypeC op ws).toNat = op.toNat * 32 + ws.toBits.toNat * 4 + 2 := by
  simp only [encodeTypeC, toNat_append_eq_add, BitVec.reduceToNat]
  omega

theorem toNat_encodeTypeA (n : BitVec 4) (sub : BitVec 2) (cls : OpClass) :
    (encodeTypeA n sub cls).toNat = n.toNat * 64 + sub.toNat * 16 + cls.number.toNat * 4 := by
  simp only [encodeTypeA, toNat_append_eq_add, BitVec.reduceToNat]
  omega

theorem toNat_encodeTypeAGroup (g sel : BitVec 3) (cls : OpClass) :
    (encodeTypeAGroup g sel cls).toNat = g.toNat * 128 + sel.toNat * 16 + cls.number.toNat * 4 := by
  simp only [encodeTypeAGroup, toNat_append_eq_add, BitVec.reduceToNat]
  omega

theorem toNat_encodeTypeAFixed (v : BitVec 6) (cls : OpClass) :
    (encodeTypeAFixed v cls).toNat = v.toNat * 16 + cls.number.toNat * 4 := by
  simp only [encodeTypeAFixed, toNat_append_eq_add, BitVec.reduceToNat]
  omega

theorem toNat_encodeTarget (t : BitVec 8) (tag : BitVec 2) :
    (encodeTarget t tag).toNat = t.toNat * 4 + tag.toNat := by
  simp only [encodeTarget, toNat_append_eq_add, BitVec.reduceToNat]
  omega

/-! ## Each layout: bits 9:0 of a word are an encoding exactly if its fields are the encoded ones -/

theorem WordSel.toBits_ofBits (b : BitVec 3) : (WordSel.ofBits b).toBits = b := by
  revert b; decide

theorem WordSel.ofBits_toBits (ws : WordSel) : WordSel.ofBits ws.toBits = ws := by
  cases ws <;> rfl

theorem WordSel.ofBits_eq_iff (b : BitVec 3) (ws : WordSel) : WordSel.ofBits b = ws ↔ b = ws.toBits :=
  ⟨fun h => h ▸ (WordSel.toBits_ofBits b).symm, fun h => h ▸ WordSel.ofBits_toBits ws⟩

section

variable {w : Word}

theorem encodeTypeC_eq_iff {op : BitVec 5} {ws : WordSel} :
    encodeTypeC op ws = w &&& 0x03FF ↔ tagOf w = 2 ∧ opOf w = op ∧ WordSel.ofBits (wsOf w) = ws := by
  simp only [WordSel.ofBits_eq_iff, ← BitVec.toNat_inj, toNat_encodeTypeC, toNat_and_mask, toNat_tagOf, toNat_opOf,
    toNat_wsOf, BitVec.reduceToNat]
  omega

theorem encodeTypeA_eq_iff {n : BitVec 4} {sub : BitVec 2} {cls : OpClass} :
    encodeTypeA n sub cls = w &&& 0x03FF ↔ tagOf w = 0 ∧ clsOf w = cls.number ∧ subOf w = sub ∧ nOf w = n := by
  simp only [← BitVec.toNat_inj, toNat_encodeTypeA, toNat_and_mask, toNat_tagOf, toNat_clsOf, toNat_subOf, toNat_nOf,
    BitVec.reduceToNat]
  omega

theorem encodeTypeAGroup_eq_iff {g sel : BitVec 3} {cls : OpClass} :
    encodeTypeAGroup g sel cls = w &&& 0x03FF ↔ tagOf w = 0 ∧ clsOf w = cls.number ∧ selOf w = sel ∧ gOf w = g := by
  simp only [← BitVec.toNat_inj, toNat_encodeTypeAGroup, toNat_and_mask, toNat_tagOf, toNat_clsOf, toNat_selOf, toNat_gOf,
    BitVec.reduceToNat]
  omega

theorem encodeTypeAFixed_eq_iff {v : BitVec 6} {cls : OpClass} :
    encodeTypeAFixed v cls = w &&& 0x03FF ↔ tagOf w = 0 ∧ clsOf w = cls.number ∧ vOf w = v := by
  simp only [← BitVec.toNat_inj, toNat_encodeTypeAFixed, toNat_and_mask, toNat_tagOf, toNat_clsOf, toNat_vOf,
    BitVec.reduceToNat]
  omega

theorem encodeTarget_eq_iff {t : BitVec 8} {tag : BitVec 2} :
    encodeTarget t tag = w &&& 0x03FF ↔ tagOf w = tag ∧ fragOf w = t := by
  simp only [← BitVec.toNat_inj, toNat_encodeTarget, toNat_and_mask, toNat_tagOf, toNat_fragOf]
  omega

end

/-! ## The fields of an encoding -/

/-- A value of `I` has no bit above bit 9. -/
theorem eq_and_mask_of_lt {w : Word} (h : w.toNat < 1024) : w = w &&& 0x03FF := by
  rw [← BitVec.toNat_inj, toNat_and_mask, Nat.mod_eq_of_lt h]

@[simp] theorem fields_encodeTypeC (op : BitVec 5) (ws : WordSel) :
    tagOf (encodeTypeC op ws) = 2 ∧ opOf (encodeTypeC op ws) = op ∧ WordSel.ofBits (wsOf (encodeTypeC op ws)) = ws :=
  encodeTypeC_eq_iff.mp (eq_and_mask_of_lt (by rw [toNat_encodeTypeC]; omega))

@[simp] theorem fields_encodeTypeA (n : BitVec 4) (sub : BitVec 2) (cls : OpClass) :
    tagOf (encodeTypeA n sub cls) = 0 ∧ clsOf (encodeTypeA n sub cls) = cls.number ∧
      subOf (encodeTypeA n sub cls) = sub ∧ nOf (encodeTypeA n sub cls) = n :=
  encodeTypeA_eq_iff.mp (eq_and_mask_of_lt (by rw [toNat_encodeTypeA]; omega))

@[simp] theorem fields_encodeTypeAGroup (g sel : BitVec 3) (cls : OpClass) :
    tagOf (encodeTypeAGroup g sel cls) = 0 ∧ clsOf (encodeTypeAGroup g sel cls) = cls.number ∧
      selOf (encodeTypeAGroup g sel cls) = sel ∧ gOf (encodeTypeAGroup g sel cls) = g :=
  encodeTypeAGroup_eq_iff.mp (eq_and_mask_of_lt (by rw [toNat_encodeTypeAGroup]; omega))

@[simp] theorem fields_encodeTarget (t : BitVec 8) (tag : BitVec 2) :
    tagOf (encodeTarget t tag) = tag ∧ fragOf (encodeTarget t tag) = t :=
  encodeTarget_eq_iff.mp (eq_and_mask_of_lt (by rw [toNat_encodeTarget]; omega))

section

variable (w : Word)

/-- `I[6:4]` is the low three bits of `I[9:4]` (R76). -/
theorem selOf_eq_vOf : selOf w = (vOf w).extractLsb' 0 3 := by
  rw [← BitVec.toNat_inj, BitVec.extractLsb'_toNat, toNat_selOf, toNat_vOf]
  omega

/-- `I[5:4]` is the low two bits of `I[6:4]` (R76). -/
theorem subOf_eq_selOf : subOf w = (selOf w).extractLsb' 0 2 := by
  rw [← BitVec.toNat_inj, BitVec.extractLsb'_toNat, toNat_selOf, toNat_subOf]
  omega

end

/-- The fragment of a type-A word of the layout with an operand (R72, R76). -/
theorem fragOf_encodeTypeA (n : BitVec 4) (sub : BitVec 2) (cls : OpClass) :
    fragOf (encodeTypeA n sub cls) = n ++ (sub ++ cls.number) := by
  rw [← BitVec.toNat_inj, toNat_fragOf, toNat_encodeTypeA, toNat_append_eq_add, toNat_append_eq_add]
  omega

/-! ## The decoder by type and class -/

/-- The decoder of a class, by its name. -/
def decodeClass : OpClass → Word → Except UndefinedOpcode Instr
  | .romMisc => decodeRomMisc
  | .status => decodeStatus
  | .dataEntry => decodeDataEntry
  | .pointer => decodePointer

/-- The class that a number names (R75). -/
def OpClass.ofNumber (b : BitVec 2) : OpClass := #v[.romMisc, .status, .dataEntry, .pointer].get b.toFin

theorem OpClass.number_ofNumber (b : BitVec 2) : (OpClass.ofNumber b).number = b := by
  revert b; decide

theorem OpClass.ofNumber_number (cls : OpClass) : OpClass.ofNumber cls.number = cls := by
  cases cls <;> rfl

theorem OpClass.number_injective : Function.Injective OpClass.number :=
  Function.LeftInverse.injective OpClass.ofNumber_number

/-- Every word names one of the four classes in `I[3:2]` (R75). -/
theorem exists_clsOf_eq (w : Word) : ∃ cls : OpClass, clsOf w = cls.number :=
  ⟨.ofNumber (clsOf w), (OpClass.number_ofNumber _).symm⟩

theorem tagOf_cases (w : Word) : tagOf w = 0 ∨ tagOf w = 1 ∨ tagOf w = 2 ∨ tagOf w = 3 := by
  have all : ∀ b : BitVec 2, b = 0 ∨ b = 1 ∨ b = 2 ∨ b = 3 := by decide
  exact all (tagOf w)

section

variable {w : Word}

/-- A word of type A goes to the decoder of its class (R75). -/
theorem decode_of_typeA {cls : OpClass} (htag : tagOf w = 0) (hcls : clsOf w = cls.number) :
    decode w = decodeClass cls w := by
  cases cls <;> simp [decode, decodeTypeA, decodeClass, OpClass.number, htag, hcls]

/-- A word of type B is a `JSB` (R73). -/
theorem decode_of_tagOf_one (h : tagOf w = 1) : decode w = .ok (.jsb (fragOf w)) := by
  simp [decode, h]

/-- A word of type C is never undefined (R78). -/
theorem decode_of_tagOf_two (h : tagOf w = 2) : decode w = .ok (decodeTypeC w) := by
  simp [decode, h]

end

/-! ## The two tables of operations -/

theorem encode_typeCTable (op : BitVec 5) (ws : WordSel) :
    encode (typeCTable.get op.toFin ws) = encodeTypeC op ws := by
  cases ws <;> revert op <;> decide

theorem wellFormed_typeCTable (op : BitVec 5) (ws : WordSel) : (typeCTable.get op.toFin ws).wellFormed = true := by
  cases ws <;> revert op <;> decide

theorem encode_dataGroupTable (g : BitVec 3) :
    encode (dataGroupTable.get g.toFin) = encodeTypeAGroup g 2 .dataEntry := by
  revert g; decide

theorem wellFormed_dataGroupTable (g : BitVec 3) : (dataGroupTable.get g.toFin).wellFormed = true := by
  revert g; decide

/-! ## Decoding an encoding -/

theorem decode_encodeTypeC (op : BitVec 5) (ws : WordSel) :
    decode (encodeTypeC op ws) = .ok (typeCTable.get op.toFin ws) := by
  simp [decode, decodeTypeC]

/-- A type-A word with an operand goes to its class's decoder. -/
theorem decode_encodeTypeA (n : BitVec 4) (sub : BitVec 2) (cls : OpClass) :
    decode (encodeTypeA n sub cls) = decodeClass cls (encodeTypeA n sub cls) := by
  apply decode_of_typeA <;> simp

theorem decode_dataGroup (g : BitVec 3) :
    decode (encodeTypeAGroup g 2 .dataEntry) = .ok (dataGroupTable.get g.toFin) := by
  rw [decode_of_typeA (cls := .dataEntry) (by simp) (by simp)]
  simp [decodeClass, decodeDataEntry, subOf_eq_selOf]

/-- A group other than 0 is not the word of `NOP`. -/
theorem vOf_ne_zero {w : Word} (h : selOf w ≠ 0) : vOf w ≠ 0 := by
  contrapose h
  rw [selOf_eq_vOf, h]
  rfl

theorem decode_selRom (g : BitVec 3) : decode (encodeTypeAGroup g 1 .romMisc) = .ok (.selRom g) := by
  rw [decode_of_typeA (cls := .romMisc) (by simp) (by simp)]
  have notNop : vOf (encodeTypeAGroup g 1 .romMisc) ≠ 0 := vOf_ne_zero (by simp)
  simp only [decodeClass, decodeRomMisc, if_neg notNop]
  simp

/-- Settles O1: an encoding has the fields it was built from, so the decoder takes the branch of its layout; a flag number below
12 is the one operand that the decoder checks. -/
theorem decodeOfEncode : Obligations.DecodeOfEncode := by
  intro i hi
  cases i with
  | ifBEq0 ws | clrB ws | ifAGeC ws | ifCGe1 ws | bToC ws | negC ws | clrC ws | negCM1 ws
  | shlA ws | aToB ws | aSubCToC ws | decC ws | cToA ws | ifCEq0 ws | aAddCToC ws | incC ws
  | ifAGeB ws | bExchC ws | shrC ws | ifAGe1 ws | shrB ws | cAddCToC ws | shrA ws | clrA ws
  | aSubBToA ws | aExchB ws | aSubCToA ws | decA ws | aAddBToA ws | aExchC ws | aAddCToA ws | incA ws =>
    exact decode_encodeTypeC _ ws
  | setS n | testS n | resetS n =>
    have flag : n.toNat < 12 := by simpa [Instr.wellFormed, flagNumberOk] using hi
    have small : ¬11 < n.toNat := by omega
    simp [encode, decode_encodeTypeA, decodeClass, decodeStatus, small]
  | clearStatus => simp [encode, decode_encodeTypeA, decodeClass, decodeStatus]
  | setP n | testP n | decP | incP => simp [encode, decode_encodeTypeA, decodeClass, decodePointer]
  | loadConst n => simp [encode, decode_encodeTypeA, decodeClass, decodeDataEntry]
  | displayToggle | cExchM | cToStack | stackToA | displayOff | mToC | downRotate | clearRegs =>
    exact decode_dataGroup _
  | selRom g => exact decode_selRom g
  | dataToC | nop | ret | keysToRom | cToAddr | cToData => decide
  | jsb t => simp [encode, decode]
  | branch t => simp [encode, decode]

/-! ## What a class's decoder answers -/

/-- The instruction is the row of the opcode map for the word's bits 9:0 (R84). -/
def Instr.IsRowOf (i : Instr) (w : Word) : Prop := i.wellFormed = true ∧ encode i = w &&& 0x03FF

/-- The two answers of a class's decoder: the row of a word that the class's table maps, or the report of a word that it leaves
unmapped (R85, R87). -/
inductive ClassAnswer (cls : OpClass) (w : Word) : Except UndefinedOpcode Instr → Prop
  | row {i : Instr} (mapped : unmappedIn w cls = false) (isRow : i.IsRowOf w) : ClassAnswer cls w (.ok i)
  | report (unmapped : unmappedIn w cls = true) : ClassAnswer cls w (undefinedOpcode cls w)

section

variable {w : Word} (htag : tagOf w = 0)

include htag

/-- The row of a flag instruction: the sub-operation is its own and the flag number is below 12 (R79, R88). -/
theorem flag_answer {i : Instr} {sub : BitVec 2} (hcls : clsOf w = OpClass.status.number) (hsub : subOf w = sub)
    (notClear : ¬subOf w = 3) (small : ¬11 < (nOf w).toNat) (hi : encode i = encodeTypeA (nOf w) sub .status)
    (hwf : i.wellFormed = flagNumberOk (nOf w)) : ClassAnswer .status w (.ok i) := by
  have below : (nOf w).toNat < 12 := by omega
  refine .row ?_ ⟨by simp [hwf, flagNumberOk, below], hi.trans (encodeTypeA_eq_iff.mpr ⟨htag, hcls, hsub, rfl⟩)⟩
  simp_all [unmappedIn]

theorem decodeStatus_answer (hcls : clsOf w = OpClass.status.number) : ClassAnswer .status w (decodeStatus w) := by
  unfold decodeStatus
  split_ifs with clear zero large set test
  · exact .row (by simp [unmappedIn, clear, zero]) ⟨rfl, encodeTypeA_eq_iff.mpr ⟨htag, hcls, clear, zero⟩⟩
  · exact .report (by simp_all [unmappedIn])
  · have above : 12 ≤ (nOf w).toNat := by omega
    exact .report (by simp_all [unmappedIn])
  · exact flag_answer htag hcls set clear large rfl rfl
  · exact flag_answer htag hcls test clear large rfl rfl
  · have reset : subOf w = 2 := by bv_omega
    exact flag_answer htag hcls reset clear large rfl rfl

theorem decodePointer_answer (hcls : clsOf w = OpClass.pointer.number) : ClassAnswer .pointer w (decodePointer w) := by
  unfold decodePointer
  split_ifs with set test zero dec
  · exact .row (by simp [unmappedIn, set]) ⟨rfl, encodeTypeA_eq_iff.mpr ⟨htag, hcls, set, rfl⟩⟩
  · exact .row (by simp [unmappedIn, test]) ⟨rfl, encodeTypeA_eq_iff.mpr ⟨htag, hcls, test, rfl⟩⟩
  · exact .row (by simp [unmappedIn, zero]) ⟨rfl, encodeTypeA_eq_iff.mpr ⟨htag, hcls, dec, zero⟩⟩
  · have inc : subOf w = 3 := by bv_omega
    exact .row (by simp [unmappedIn, zero]) ⟨rfl, encodeTypeA_eq_iff.mpr ⟨htag, hcls, inc, zero⟩⟩
  · have count : subOf w = 1 ∨ subOf w = 3 := by bv_omega
    exact .report (by simp_all [unmappedIn])

theorem decodeDataEntry_answer (hcls : clsOf w = OpClass.dataEntry.number) :
    ClassAnswer .dataEntry w (decodeDataEntry w) := by
  unfold decodeDataEntry
  split_ifs with load group read
  · exact .row (by simp [unmappedIn, load]) ⟨rfl, encodeTypeA_eq_iff.mpr ⟨htag, hcls, load, rfl⟩⟩
  · refine .row (by simp [unmappedIn, group]) ⟨wellFormed_dataGroupTable (gOf w), ?_⟩
    exact (encode_dataGroupTable (gOf w)).trans (encodeTypeAGroup_eq_iff.mpr ⟨htag, hcls, group, rfl⟩)
  · exact .row (by simp [unmappedIn, read]) ⟨rfl, encodeTypeAFixed_eq_iff.mpr ⟨htag, hcls, read⟩⟩
  · exact .report (by simp_all [unmappedIn])

theorem decodeRomMisc_answer (hcls : clsOf w = OpClass.romMisc.number) : ClassAnswer .romMisc w (decodeRomMisc w) := by
  have fixed {v : BitVec 6} (hv : vOf w = v) : encodeTypeAFixed v .romMisc = w &&& 0x03FF :=
    encodeTypeAFixed_eq_iff.mpr ⟨htag, hcls, hv⟩
  unfold decodeRomMisc
  split_ifs with nop selRom ret keysToRom cToAddr cToData
  · exact .row (by simp [unmappedIn, nop]) ⟨rfl, fixed nop⟩
  · exact .row (by simp [unmappedIn, selRom]) ⟨rfl, encodeTypeAGroup_eq_iff.mpr ⟨htag, hcls, selRom, rfl⟩⟩
  · exact .row (by simp [unmappedIn, ret]) ⟨rfl, fixed ret⟩
  · exact .row (by simp [unmappedIn, keysToRom]) ⟨rfl, fixed keysToRom⟩
  · exact .row (by simp [unmappedIn, cToAddr]) ⟨rfl, fixed cToAddr⟩
  · exact .row (by simp [unmappedIn, cToData]) ⟨rfl, fixed cToData⟩
  · exact .report (by simp_all [unmappedIn])

/-- All that decoding a word of type A can answer. -/
theorem decode_typeA_answer {cls : OpClass} (hcls : clsOf w = cls.number) : ClassAnswer cls w (decode w) := by
  rw [decode_of_typeA htag hcls]
  cases cls with
  | romMisc => exact decodeRomMisc_answer htag hcls
  | status => exact decodeStatus_answer htag hcls
  | dataEntry => exact decodeDataEntry_answer htag hcls
  | pointer => exact decodePointer_answer htag hcls

end

section

variable {cls : OpClass} {w : Word} {answer : Except UndefinedOpcode Instr} (h : ClassAnswer cls w answer)

include h

theorem ClassAnswer.isRowOf {i : Instr} (ok : answer = .ok i) : i.IsRowOf w := by
  cases h with
  | row mapped isRow => cases ok; exact isRow
  | report unmapped => cases ok

theorem ClassAnswer.eq_error_iff (u : UndefinedOpcode) :
    answer = .error u ↔ u = ⟨cls, fragOf w⟩ ∧ unmappedIn w cls = true := by
  cases h with
  | row mapped isRow => simp [mapped]
  | report unmapped => simp [undefinedOpcode, unmapped, eq_comm]

end

/-! ## Undefined words (R87) -/

/-- No word of type B, C or D is undefined (R270). -/
theorem decode_ne_error {w : Word} (h : tagOf w ≠ 0) (u : UndefinedOpcode) : decode w ≠ .error u := by
  unfold decode
  rw [if_neg h]
  split_ifs <;> nofun

/-- Settles O4: a word of type A is reported by its own class's decoder, which follows the fields of R87; the other types have
no report. -/
theorem undefinedWordsAreTheUnmappedOnes : Obligations.UndefinedWordsAreTheUnmappedOnes := by
  intro w u
  by_cases htag : tagOf w = 0
  · obtain ⟨cls, hcls⟩ := exists_clsOf_eq w
    rw [(decode_typeA_answer htag hcls).eq_error_iff]
    constructor
    · rintro ⟨rfl, unmapped⟩
      exact ⟨htag, hcls, rfl, unmapped⟩
    · rintro ⟨-, hu, hfrag, unmapped⟩
      obtain rfl : cls = u.cls := OpClass.number_injective (hcls.symm.trans hu)
      exact ⟨by rw [← hfrag], unmapped⟩
  · exact ⟨fun h => absurd h (decode_ne_error htag u), fun ⟨typeA, _⟩ => absurd typeA htag⟩

/-! ## Encoding a decoded word -/

theorem isRowOf_decodeTypeC {w : Word} (htag : tagOf w = 2) : (decodeTypeC w).IsRowOf w :=
  ⟨wellFormed_typeCTable _ _, (encode_typeCTable _ _).trans (encodeTypeC_eq_iff.mpr ⟨htag, rfl, rfl⟩)⟩

/-- Settles O2: a word's bits 9:0 are the encoding of its own fields, in the layout of the branch that the decoder takes. -/
theorem encodeOfDecode : Obligations.EncodeOfDecode := by
  intro w i h
  change i.IsRowOf w
  obtain htag | htag | htag | htag := tagOf_cases w
  · obtain ⟨cls, hcls⟩ := exists_clsOf_eq w
    exact (decode_typeA_answer htag hcls).isRowOf h
  · rw [decode_of_tagOf_one htag] at h
    cases h
    exact ⟨rfl, encodeTarget_eq_iff.mpr ⟨htag, rfl⟩⟩
  · rw [decode_of_tagOf_two htag] at h
    cases h
    exact isRowOf_decodeTypeC htag
  · rw [Machine.decode_of_tagOf_three htag] at h
    cases h
    exact ⟨rfl, encodeTarget_eq_iff.mpr ⟨htag, rfl⟩⟩

/-! ## The map -/

/-- Settles O5, by enumeration of the 1024 values. The rows of R84 behind the counts of type A: 3 * 12 + 1 flag instructions,
2 * 16 + 2 pointer instructions, 16 constants with the group of 8 and `DATA_TO_C`, and 8 pages with 5 fixed words. -/
theorem opcodeMapCounts : Obligations.OpcodeMapCounts := by
  unfold Obligations.OpcodeMapCounts
  decide +kernel

/-- Settles O6: eight of the words are encodings, and the ninth is an unmapped word of the status class. -/
theorem wordsOfTheOpcodeMapDecode : Obligations.WordsOfTheOpcodeMapDecode :=
  ⟨decodeOfEncode (.shrB .m) rfl, decodeOfEncode (.testS 11) rfl, decodeOfEncode (.testP 12) rfl,
    decodeOfEncode (.loadConst 7) rfl, decodeOfEncode .downRotate rfl, decodeOfEncode (.selRom 2) rfl,
    decodeOfEncode (.jsb 0x40) rfl, decodeOfEncode (.branch 0x3A) rfl,
    (undefinedWordsAreTheUnmappedOnes _ _).mpr (by decide)⟩

/-- Settles O58: each row is the type-C layout with the row's own operation number. -/
theorem typeCOpcodeMap : Obligations.TypeCOpcodeMap := by
  refine ⟨rfl, rfl, rfl, rfl, rfl, rfl, rfl, rfl, fun ws => ?_⟩
  and_intros <;> exact toNat_encodeTypeC _ ws

/-- The pattern of a type-A row with an operand: the operand times 64, and what sub-operation and class add. -/
theorem toNat_encodeTypeA_eq_add {sub : BitVec 2} {cls : OpClass} {k : Nat}
    (hk : sub.toNat * 16 + cls.number.toNat * 4 = k) (n : BitVec 4) :
    (encodeTypeA n sub cls).toNat = n.toNat * 64 + k := by
  rw [toNat_encodeTypeA, add_assoc, hk]

/-- Settles O59: the operand stands at bit 6, a page at bit 7, and the rest of each word is a constant of its row. -/
theorem typeAOpcodeMap : Obligations.TypeAOpcodeMap :=
  ⟨fun n => ⟨toNat_encodeTypeA_eq_add rfl n, toNat_encodeTypeA_eq_add rfl n, toNat_encodeTypeA_eq_add rfl n, rfl,
      toNat_encodeTypeA_eq_add rfl n, rfl, toNat_encodeTypeA_eq_add rfl n, rfl, toNat_encodeTypeA_eq_add rfl n,
      rfl, rfl, rfl, rfl, rfl, rfl, rfl, rfl, rfl⟩,
    fun g => ⟨rfl, toNat_encodeTypeAGroup g 1 .romMisc, rfl, rfl, rfl, rfl⟩⟩

end Sys2Proof

namespace Sys2Proof.Machine

/-- Settles O44: the flag number is refused, and the fragment reported is the encoding's, `n` above the sub-operation and the
class number. -/
theorem badFlagNumberRaisesUndefinedOpcode : Obligations.BadFlagNumberRaisesUndefinedOpcode := by
  intro s n hn
  have bad : flagNumberOk n = false := by simpa [flagNumberOk] using hn
  simp only [exec, execSetS, execTestS, execResetS, bad, encode, fragOf_encodeTypeA]
  exact ⟨rfl, rfl, rfl⟩

end Sys2Proof.Machine

/-! # The instruction cycle and its status (40_step_cycle.md, R100 to R108; 60_exceptions.md, R272 and R273) -/

namespace Sys2Proof.Machine

/-! ## Steps 2 to 4 of the cycle -/

section

variable (s : State) (w : Word)

/-- All that steps 2 to 4 do: the program counter, the status word, CY and the returned status are written (R102 to R104). -/
theorem State.beginCycle_eq :
    s.beginCycle w =
      { s with
        pc := addrOf (pageOf s.pc) (offOf s.pc + 1)
        status := setFlag s.status 0 s.kdn
        cy := if tagOf w = 3 then s.cy else false
        result := .success } := by
  unfold State.beginCycle State.clearCarry
  split <;> rfl

/-- Step 3 makes flag 0 the key-down state (R103). -/
theorem State.flagAt_beginCycle_zero : flagAt (s.beginCycle w).status 0 = s.kdn := by
  rw [State.beginCycle_status, flagAt_setFlag _ _ _ _ (by decide), if_pos rfl]

end

/-- Settles O8: the offset is advanced in its 8 bits, so modulo 256; the key merge writes flag 0 alone; and `beginCycle_eq` has
no field but the four named. -/
theorem commonStepsOfTheCycle : Obligations.CommonStepsOfTheCycle := by
  intro s w
  refine ⟨_, rfl, by simp, by simp [BitVec.toNat_add], s.flagAt_beginCycle_zero w, fun n hn => s.flagAt_beginCycle w hn,
    ?_, s.beginCycle_result w, ?_⟩
  · rw [State.beginCycle_cy, ite_not]
    rfl
  · rw [s.beginCycle_eq w]

/-! ## Step 5: the fetched word decides (R107) -/

section

variable {s : State}

theorem step_of_decode_ok {i : Instr} (h : decode s.fetch = .ok i) : step s = exec i (s.beginCycle s.fetch) := by
  simp only [step, h]

theorem step_of_decode_error {u : UndefinedOpcode} (h : decode s.fetch = .error u) :
    step s = .next ((s.beginCycle s.fetch).raiseUndefinedOpcode u) := by
  simp only [step, h]

end

/-- Settles O7: the word at the program counter is the one a step fetches (R101). -/
theorem stepRunsTheDecodedInstruction : Obligations.StepRunsTheDecodedInstruction :=
  fun _ _ _ h => step_of_decode_ok h

/-! ## The instructions that name a flag, for a number that is one (R200 to R202) -/

section

variable {n : BitVec 4} (h : flagNumberOk n = true) (s : State)

include h

theorem exec_setS_of_flagNumberOk : exec (.setS n) s = .next { s with status := setFlag s.status n true } :=
  if_pos h

theorem exec_testS_of_flagNumberOk : exec (.testS n) s = .next { s with cy := s.cy || flagAt s.status n } :=
  if_pos h

theorem exec_resetS_of_flagNumberOk : exec (.resetS n) s = .next { s with status := setFlag s.status n false } :=
  if_pos h

end

/-! ## Flag 0 (R103, R205, R316) -/

section

variable {s t : State} (h : step s = .next t)

include h

/-- Flag 0 is the key-down state after a step whose instruction did not write it. -/
theorem step_flagAt_zero (set : decode s.fetch ≠ .ok (.setS 0)) (reset : decode s.fetch ≠ .ok (.resetS 0))
    (clear : decode s.fetch ≠ .ok .clearStatus) : flagAt t.status 0 = s.kdn := by
  rw [← s.flagAt_beginCycle_zero s.fetch]
  obtain ⟨i, hi, he⟩ | ⟨u, -, rfl⟩ := step_effect h
  · by_contra written
    obtain rfl | rfl | rfl := he.writer_of_flag written
    · exact clear hi
    · exact set hi
    · exact reset hi
  · rfl

/-- `TEST_S 0` finds CY clear and flag 0 merged with the key of its own cycle. -/
theorem step_testS_zero_cy (test : decode s.fetch = .ok (.testS 0)) : t.cy = s.kdn := by
  have notBranch : tagOf s.fetch ≠ 3 := fun htag => by simp [decode_of_tagOf_three htag] at test
  rw [step_of_decode_ok test, exec_testS_of_flagNumberOk rfl] at h
  cases h
  simp only [s.beginCycle_cy_eq_false notBranch, s.flagAt_beginCycle_zero, Bool.false_or]

end

/-- Settles O15: step 3 merges the key into flag 0, only the three named instructions write the flag after it, and `TEST_S 0`
reads it there. -/
theorem flagZeroMirrorsTheKey : Obligations.FlagZeroMirrorsTheKey :=
  fun _ _ h => ⟨step_flagAt_zero h, step_testS_zero_cy h⟩

/-! ## The status of a step (R106, R272, R273) -/

/-- The code of every undefined opcode is negative (R273). -/
theorem undefCode_neg (u : UndefinedOpcode) : Config.undefCode u < 0 := Int.negSucc_lt_zero _

/-- Within a class the codes tell the fragments apart, whatever the order of the numbers (R273). -/
theorem undefCode_injective (cls : OpClass) : Function.Injective fun frag => Config.undefCode ⟨cls, frag⟩ := by
  intro f g h
  have order : Config.undefOrder cls f.toNat = Config.undefOrder cls g.toNat := Int.negSucc.inj h
  exact BitVec.eq_of_toNat_eq ((Config.undefOrder cls).injective order)

/-- The code of a step that reported an undefined opcode is the code of the pair (R272). -/
theorem State.stepCode_of_undefined {s : State} {u : UndefinedOpcode} (h : s.result = .undefined u) :
    s.stepCode = Config.undefCode u := by
  simp only [State.stepCode, h]

/-- An instruction of the opcode map reports nothing: only a flag number of 12..15 raises an undefined opcode in step 5, and
the map has none (R88). -/
theorem exec_result_eq {i : Instr} {s t : State} (hwf : i.wellFormed = true) (h : exec i s = .next t) :
    t.result = s.result := by
  cases exec_effect h with
  | undefinedFlag n u mem =>
    simp only [List.mem_cons, List.not_mem_nil, or_false] at mem
    obtain rfl | rfl | rfl := mem
    · rw [exec_setS_of_flagNumberOk hwf] at h
      exact (congrArg State.result (Host.Outcome.next.inj h)).symm
    · rw [exec_testS_of_flagNumberOk hwf] at h
      exact (congrArg State.result (Host.Outcome.next.inj h)).symm
    · rw [exec_resetS_of_flagNumberOk hwf] at h
      exact (congrArg State.result (Host.Outcome.next.inj h)).symm
  | _ => rfl

/-- Settles O19: a decoded instruction is one of the map, so the success that steps 2 to 4 leave stands; a report's code is
negative and, within a class, its own. -/
theorem statusTellsWhetherTheOpcodeIsMapped : Obligations.StatusTellsWhetherTheOpcodeIsMapped := by
  refine ⟨fun s t h => ⟨?_, ?_⟩, fun cls _ _ hcode => undefCode_injective cls hcode⟩
  · rintro ⟨i, hi⟩
    obtain ⟨hwf, -⟩ := encodeOfDecode s.fetch i hi
    rw [step_of_decode_ok hi] at h
    exact State.stepCode_of_success ((exec_result_eq hwf h).trans (s.beginCycle_result s.fetch))
  · rintro ⟨u, hu⟩
    rw [step_of_decode_error hu] at h
    cases h
    rw [State.stepCode_of_undefined (State.raiseUndefinedOpcode_result _ u)]
    exact undefCode_neg u

/-! ## The caller's key operations (R100, R108) -/

/-- With no key down, `key_up` changes nothing. -/
theorem State.keyUp_of_kdn_eq_false {s : State} (h : s.kdn = false) : s.keyUp = s := by
  rw [State.keyUp, ← h]

/-- Settles O57: each operation writes the latch fields that it names, so a second `key_down` overwrites both of the first. -/
theorem keyOperationsActOnTheLatch : Obligations.KeyOperationsActOnTheLatch :=
  fun _ _ _ => ⟨rfl, rfl, rfl, State.keyUp_of_kdn_eq_false⟩

end Sys2Proof.Machine

/-! # The word-select range and the BCD unit (41_word_select_bcd_unit.md: R120 to R137) -/

namespace Sys2Proof

/-! ## The resolver -/

/-- A mode has no range exactly where it would read a pointer of 14 or 15 as a cell index (R122). -/
theorem WordSel.field_eq_none_iff (ws : WordSel) (p : BitVec 4) :
    ws.field p = none ↔ 14 ≤ p.toNat ∧ (ws = .p ∨ ws = .wp) := by
  cases ws with
  | p | wp => simp [WordSel.field]
  | m | x | w | ms | xs | s => simp [WordSel.field]

namespace Machine

/-- Settles O21: six modes do not read the pointer, and the other two read one below 14. -/
theorem wordSelectTable : Obligations.WordSelectTable :=
  fun _ => ⟨fun h => if_pos h, rfl, rfl, rfl, fun h => if_pos h, rfl, rfl, rfl⟩

/-- Settles O22: a resolved range has the bounds of its mode, and only a pointer of 14 or 15 leaves a mode without one. -/
theorem rangeStaysInTheRegister : Obligations.RangeStaysInTheRegister := by
  refine fun ws p => ⟨fun fl h => ?_, ws.field_eq_none_iff p⟩
  obtain ⟨nonempty, inside, -⟩ := ws.field_bounds p fl h
  exact ⟨nonempty, inside⟩

end Machine

/-! ## Cells of a field -/

section

variable {fl : Field}

theorem Field.width_eq (h : fl.lo ≤ fl.hi) : fl.width = fl.hi - fl.lo + 1 := by
  unfold Field.width
  omega

/-- The cells of a field are the `fl.width` cells from `fl.lo` upward. -/
theorem Field.has_iff_exists_add {i : Nat} : fl.has i = true ↔ ∃ k < fl.width, i = fl.lo + k := by
  rw [Field.has_iff, Field.width]
  constructor
  · rintro ⟨hlo, hhi⟩
    exact ⟨i - fl.lo, by omega, by omega⟩
  · rintro ⟨k, hk, rfl⟩
    omega

theorem Field.has_lo_add {k : Nat} (h : k < fl.width) : fl.has (fl.lo + k) = true :=
  Field.has_iff_exists_add.2 ⟨k, h, rfl⟩

end

/-! ## The number and its digits -/

section

variable {r r' : Reg} {lo n : Nat}

/-- Of two numbers with different highest digits, the one with the smaller highest digit is the smaller. -/
theorem Reg.numFrom_succ_lt (h : (r.cell (lo + n)).val < (r'.cell (lo + n)).val) :
    r.numFrom lo (n + 1) < r'.numFrom lo (n + 1) := by
  have low : r.numFrom lo n < 10 ^ n := r.numFrom_lt lo n
  have high : ((r.cell (lo + n)).val + 1) * 10 ^ n ≤ (r'.cell (lo + n)).val * 10 ^ n := Nat.mul_le_mul_right _ h
  rw [Nat.succ_mul] at high
  simp only [Reg.numFrom]
  omega

/-- Two numbers with the same highest digit compare as the digits below it do. -/
theorem Reg.numFrom_succ_lt_iff (h : (r.cell (lo + n)).val = (r'.cell (lo + n)).val) :
    r.numFrom lo (n + 1) < r'.numFrom lo (n + 1) ↔ r.numFrom lo n < r'.numFrom lo n := by
  simp only [Reg.numFrom, h, Nat.add_lt_add_iff_right]

/-- A number determines its digits. -/
theorem Reg.cell_eq_of_numFrom_eq (h : r.numFrom lo n = r'.numFrom lo n) :
    ∀ k < n, r.cell (lo + k) = r'.cell (lo + k) := by
  induction n with
  | zero => exact fun k hk => absurd hk k.not_lt_zero
  | succ n ih =>
    have top : r.cell (lo + n) = r'.cell (lo + n) := by
      obtain less | same | more := lt_trichotomy (r.cell (lo + n)) (r'.cell (lo + n))
      · exact absurd h (Reg.numFrom_succ_lt less).ne
      · exact same
      · exact absurd h (Reg.numFrom_succ_lt more).ne'
    have below : r.numFrom lo n = r'.numFrom lo n := by simpa only [Reg.numFrom, top, Nat.add_right_cancel_iff] using h
    intro k hk
    obtain hk | rfl := Nat.lt_succ_iff_lt_or_eq.1 hk
    · exact ih below k hk
    · exact top

theorem Reg.cell_eq_of_num_eq {fl : Field} (h : r.num fl = r'.num fl) {i : Nat} (hi : fl.has i = true) :
    r.cell i = r'.cell i := by
  obtain ⟨k, hk, rfl⟩ := Field.has_iff_exists_add.1 hi
  exact Reg.cell_eq_of_numFrom_eq h k hk

end

/-- A field's number is its own residue modulo `10 ^ n`. -/
theorem Reg.num_emod (r : Reg) (fl : Field) : (r.num fl : Int) % 10 ^ fl.width = r.num fl :=
  Int.emod_eq_of_lt (Int.natCast_nonneg _) (by exact_mod_cast r.num_lt fl)

/-! ## Addition and subtraction cell by cell -/

section

variable (x y : Reg) (lo n : Nat)

/-- A cell of the sum and the carry out of it hold what came in (R127). -/
theorem addDigit_balance :
    (addDigit x y lo n).val + (addCarry x y lo (n + 1)).toNat * 10 =
      (x.cell (lo + n)).val + (y.cell (lo + n)).val + (addCarry x y lo n).toNat := by
  have carry : (addCarry x y lo n).toNat ≤ 1 := Bool.toNat_le _
  simp only [addDigit, addCarry, Digit.val_ofNat]
  split
  next h => simp only [h, decide_true, Bool.toNat_true]; omega
  next h => simp only [h, decide_false, Bool.toNat_false]; omega

/-- A cell of the difference holds what was there and what was borrowed, less what was taken (R128). -/
theorem subDigit_balance :
    (x.cell (lo + n)).val + (subBorrow x y lo (n + 1)).toNat * 10 =
      (subDigit x y lo n).val + (y.cell (lo + n)).val + (subBorrow x y lo n).toNat := by
  have borrow : (subBorrow x y lo n).toNat ≤ 1 := Bool.toNat_le _
  simp only [subDigit, subBorrow, Digit.val_ofNat]
  split
  next h => simp only [h, decide_true, Bool.toNat_true]; omega
  next h => simp only [h, decide_false, Bool.toNat_false]; omega

variable {x y lo n}

/-- If every cell of `z` and the carry out of it hold the two digits and the carry in, then the whole of `z` and the
carry out of its top hold the two numbers. A subtraction is read as the addition that undoes it, the borrows as its carries. -/
theorem Reg.numFrom_balance {z : Reg} {carry : Nat → Bool} (start : carry 0 = false)
    (cells : ∀ k < n, (z.cell (lo + k)).val + (carry (k + 1)).toNat * 10 =
      (x.cell (lo + k)).val + (y.cell (lo + k)).val + (carry k).toNat) :
    z.numFrom lo n + (carry n).toNat * 10 ^ n = x.numFrom lo n + y.numFrom lo n := by
  induction n with
  | zero => simp [Reg.numFrom, start]
  | succ n ih =>
    have below := ih fun k hk => cells k (hk.trans n.lt_succ_self)
    have top := congrArg (· * 10 ^ n) (cells n n.lt_succ_self)
    simp only [Reg.numFrom, pow_succ] at top ⊢
    linarith

end

/-! ## Comparisons -/

/-- `compare-ge` sets carry exactly if the first number is less than the second, and never clears it (R130). -/
theorem compareGe_iff (r r' : Reg) (lo n : Nat) (cy : Bool) :
    compareGe r r' lo n cy = true ↔ cy = true ∨ r.numFrom lo n < r'.numFrom lo n := by
  induction n with
  | zero => simp [compareGe, Reg.numFrom]
  | succ n ih =>
    rw [compareGe]
    split_ifs with less more
    · simp [Reg.numFrom_succ_lt less]
    · simp [(Reg.numFrom_succ_lt more).not_gt]
    · rw [ih, Reg.numFrom_succ_lt_iff (by omega)]

/-- `compare-zero` sets carry exactly if some cell is nonzero, and never clears it (R131). -/
theorem compareZero_iff (r : Reg) (lo n : Nat) (cy : Bool) :
    compareZero r lo n cy = true ↔ cy = true ∨ ∃ k < n, r.cell (lo + k) ≠ 0 := by
  induction n generalizing cy with
  | zero => simp [compareZero]
  | succ n ih =>
    rw [compareZero, ih, Nat.exists_lt_succ_right]
    split_ifs with top
    · simp [top]
    · simp [top]

namespace Machine

section

variable (s : State) (fl : Field)

theorem State.compareGeField_cy_iff (r r' : Reg) :
    (s.compareGeField r r' fl).cy = true ↔ s.cy = true ∨ r.num fl < r'.num fl :=
  compareGe_iff r r' fl.lo fl.width s.cy

theorem State.compareZeroField_cy_iff (r : Reg) :
    (s.compareZeroField r fl).cy = true ↔ s.cy = true ∨ ∃ i, fl.has i = true ∧ r.cell i ≠ 0 := by
  refine (compareZero_iff r fl.lo fl.width s.cy).trans (or_congr_right ⟨?_, ?_⟩)
  · rintro ⟨k, hk, nonzero⟩
    exact ⟨fl.lo + k, Field.has_lo_add hk, nonzero⟩
  · rintro ⟨i, hi, nonzero⟩
    obtain ⟨k, hk, rfl⟩ := Field.has_iff_exists_add.1 hi
    exact ⟨k, hk, nonzero⟩

end

/-- Settles O26: no number is less than itself, and `compare-zero` sets carry exactly for a nonzero cell. -/
theorem compareEdges : Obligations.CompareEdges := by
  refine fun r fl s _ _ => ⟨?_, fun zeros => ?_, fun i hi nonzero => ?_⟩
  · rw [Bool.eq_iff_iff, State.compareGeField_cy_iff]
    exact or_iff_left (lt_irrefl _)
  · rw [Bool.eq_iff_iff, State.compareZeroField_cy_iff]
    exact or_iff_left fun ⟨i, hi, nonzero⟩ => nonzero (zeros i hi)
  · exact (s.compareZeroField_cy_iff fl r).2 (.inr ⟨i, hi, nonzero⟩)

/-! ## The laws of `add` and `subtract` (R127, R128, R137) -/

section

variable (z : RegName) (x y : Reg) (fl : Field) (s : State)

/-- `add` writes its destination and CY, and nothing else (R127). -/
theorem State.addInto_frame :
    s.addInto z x y fl = { s.setReg z ((s.addInto z x y fl).reg z) with cy := (s.addInto z x y fl).cy } := by
  cases z <;> rfl

/-- `subtract` writes its destination and CY, and nothing else (R128). -/
theorem State.subInto_frame :
    s.subInto z x y fl = { s.setReg z ((s.subInto z x y fl).reg z) with cy := (s.subInto z x y fl).cy } := by
  cases z <;> rfl

theorem State.addInto_keepsOutside : KeepsOutside fl (s.reg z) ((s.addInto z x y fl).reg z) := by
  intro i hi outside
  simp [State.addInto_cell _ _ _ _ _ _ hi, outside]

theorem State.subInto_keepsOutside : KeepsOutside fl (s.reg z) ((s.subInto z x y fl).reg z) := by
  intro i hi outside
  simp [State.subInto_cell _ _ _ _ _ _ hi, outside]

variable {fl} (inside : fl.hi < 14)

include inside

/-- The field of the destination and the carry out of it hold the sum. -/
theorem State.addInto_balance :
    ((s.addInto z x y fl).reg z).num fl + (s.addInto z x y fl).cy.toNat * 10 ^ fl.width = x.num fl + y.num fl := by
  refine Reg.numFrom_balance (carry := addCarry x y fl.lo) rfl fun k hk => ?_
  have hin := Field.has_lo_add hk
  have hi : fl.lo + k < 14 := ((Field.has_iff _ _).1 hin).2.trans_lt inside
  rw [State.addInto_cell _ _ _ _ _ _ hi, if_pos hin, Nat.add_sub_cancel_left]
  exact addDigit_balance x y fl.lo k

/-- The field of the destination and what was taken hold what was there and what was borrowed. -/
theorem State.subInto_balance :
    x.num fl + (s.subInto z x y fl).cy.toNat * 10 ^ fl.width = ((s.subInto z x y fl).reg z).num fl + y.num fl := by
  refine Reg.numFrom_balance (carry := subBorrow x y fl.lo) rfl fun k hk => ?_
  have hin := Field.has_lo_add hk
  have hi : fl.lo + k < 14 := ((Field.has_iff _ _).1 hin).2.trans_lt inside
  rw [State.subInto_cell _ _ _ _ _ _ hi, if_pos hin, Nat.add_sub_cancel_left]
  exact subDigit_balance x y fl.lo k

/-- The destination's field spells the sum modulo `10 ^ n` (R127). -/
theorem State.addInto_num : ((s.addInto z x y fl).reg z).num fl = (x.num fl + y.num fl) % 10 ^ fl.width := by
  rw [← s.addInto_balance z x y inside, Nat.add_mul_mod_self_right, Nat.mod_eq_of_lt (Reg.num_lt _ fl)]

/-- CY is the carry out of the field, whatever it was before (R127). -/
theorem State.addInto_cy_iff : (s.addInto z x y fl).cy = true ↔ 10 ^ fl.width ≤ x.num fl + y.num fl := by
  have balance := s.addInto_balance z x y inside
  have bound := ((s.addInto z x y fl).reg z).num_lt fl
  cases h : (s.addInto z x y fl).cy with
  | false =>
    rw [h, Bool.toNat_false, Nat.zero_mul] at balance
    simp only [Bool.false_eq_true, false_iff]
    omega
  | true =>
    rw [h, Bool.toNat_true, Nat.one_mul] at balance
    simp only [true_iff]
    omega

/-- The destination's field spells the non-negative residue of the difference modulo `10 ^ n` (R128). -/
theorem State.subInto_num :
    (((s.subInto z x y fl).reg z).num fl : Int) = ((x.num fl : Int) - (y.num fl : Int)) % 10 ^ fl.width := by
  have balance := congrArg (Nat.cast : Nat → Int) (s.subInto_balance z x y inside)
  push_cast at balance
  have difference : (x.num fl : Int) - (y.num fl : Int) =
      ((s.subInto z x y fl).reg z).num fl - (s.subInto z x y fl).cy.toNat * 10 ^ fl.width := by linarith
  rw [difference, Int.sub_mul_emod_self_right, Reg.num_emod]

/-- CY is the borrow out of the field, whatever it was before (R128). -/
theorem State.subInto_cy_iff : (s.subInto z x y fl).cy = true ↔ x.num fl < y.num fl := by
  have balance := s.subInto_balance z x y inside
  have bound := ((s.subInto z x y fl).reg z).num_lt fl
  cases h : (s.subInto z x y fl).cy with
  | false =>
    rw [h, Bool.toNat_false, Nat.zero_mul] at balance
    simp only [Bool.false_eq_true, false_iff]
    omega
  | true =>
    rw [h, Bool.toNat_true, Nat.one_mul] at balance
    simp only [true_iff]
    omega

/-- Subtracting `y` from the sum gives back `x` modulo `10 ^ n`, and so `x` itself, which is below it (R137). -/
theorem State.subInto_addInto_num (z' : RegName) (s' : State) :
    ((s'.subInto z' ((s.addInto z x y fl).reg z) y fl).reg z').num fl = x.num fl := by
  apply Int.ofNat.inj
  calc (((s'.subInto z' ((s.addInto z x y fl).reg z) y fl).reg z').num fl : Int)
      = (((x.num fl : Int) + y.num fl) % 10 ^ fl.width - y.num fl) % 10 ^ fl.width := by
        rw [State.subInto_num _ _ _ _ inside, State.addInto_num _ _ _ _ inside]; push_cast; rfl
    _ = (x.num fl : Int) % 10 ^ fl.width := by rw [Int.emod_sub_emod, Int.add_sub_cancel]
    _ = x.num fl := x.num_emod fl

end

/-- Settles O23: the number and the carry are the two parts of the sum, and the frame is the destination and CY. -/
theorem addPrimitiveLaw : Obligations.AddPrimitiveLaw := by
  intro z x y fl s nonempty inside
  rw [← Field.width_eq nonempty]
  exact ⟨_, rfl, s.addInto_num z x y inside, s.addInto_cy_iff z x y inside, s.addInto_keepsOutside z x y fl,
    s.addInto_frame z x y fl⟩

/-- Settles O24: the number is the difference up to the borrow, and the frame is the destination and CY. -/
theorem subtractPrimitiveLaw : Obligations.SubtractPrimitiveLaw := by
  intro z x y fl s nonempty inside
  rw [← Field.width_eq nonempty]
  exact ⟨_, rfl, s.subInto_num z x y inside, s.subInto_cy_iff z x y inside, s.subInto_keepsOutside z x y fl,
    s.subInto_frame z x y fl⟩

/-- Settles O25: the number of the field comes back, and a number determines its digits. -/
theorem addThenSubtractReproduces : Obligations.AddThenSubtractReproduces := by
  intro z z' x y fl s carry carry' _ inside
  refine ⟨_, _, rfl, rfl, fun i hi => ?_⟩
  exact Reg.cell_eq_of_num_eq (State.subInto_addInto_num z x y _ inside z' _) hi

end Machine

end Sys2Proof

/-! # Type C, the arithmetic/register class (42_arithmetic_register.md: R150 to R184) -/

namespace Sys2Proof

/-! ## Fields inside the register -/

/-- A cell of a field inside the register is one of its 14 cells. -/
theorem Field.lt_of_has {fl : Field} {i : Nat} (inside : fl.hi < 14) (h : fl.has i = true) : i < 14 :=
  ((fl.has_iff i).1 h).2.trans_lt inside

/-! ## The number of a field by its cells -/

section

variable {r r' : Reg} {lo lo' n : Nat}

/-- The lowest digit is the units, and the digits above it spell the tens. -/
theorem Reg.numFrom_succ_eq_units_add_tens (r : Reg) (lo n : Nat) :
    r.numFrom lo (n + 1) = (r.cell lo).val + 10 * r.numFrom (lo + 1) n := by
  induction n with
  | zero => simp [Reg.numFrom]
  | succ n ih =>
    rw [Reg.numFrom, ih, Reg.numFrom, Nat.add_right_comm lo 1 n, Nat.add_assoc lo n 1]
    ring

/-- Dividing by ten drops the lowest digit. -/
theorem Reg.numFrom_succ_div_ten (r : Reg) (lo n : Nat) : r.numFrom lo (n + 1) / 10 = r.numFrom (lo + 1) n := by
  rw [Reg.numFrom_succ_eq_units_add_tens]
  omega

/-- Multiplying by ten pushes the highest digit out of the `n + 1` cells. -/
theorem Reg.ten_mul_numFrom_succ_mod (r : Reg) (lo n : Nat) :
    10 * r.numFrom lo (n + 1) % 10 ^ (n + 1) = 10 * r.numFrom lo n := by
  have low : r.numFrom lo n < 10 ^ n := r.numFrom_lt lo n
  have split : 10 * r.numFrom lo (n + 1) = 10 * r.numFrom lo n + (r.cell (lo + n)).val * 10 ^ (n + 1) := by
    rw [Reg.numFrom]
    ring
  rw [split, Nat.add_mul_mod_self_right, Nat.mod_eq_of_lt (by rw [pow_succ]; omega)]

/-- The same digits spell the same number, wherever they stand. -/
theorem Reg.numFrom_eq_of_cell_eq (h : ∀ k < n, r.cell (lo + k) = r'.cell (lo' + k)) :
    r.numFrom lo n = r'.numFrom lo' n := by
  induction n with
  | zero => rfl
  | succ n ih => rw [Reg.numFrom, Reg.numFrom, ih fun k hk => h k (hk.trans n.lt_succ_self), h n n.lt_succ_self]

/-- Digits that add up to 9 everywhere spell numbers that add up to `10 ^ n - 1`. -/
theorem Reg.numFrom_add_numFrom_of_cell_add_eq_nine
    (h : ∀ k < n, (r.cell (lo + k)).val + (r'.cell (lo + k)).val = 9) :
    r.numFrom lo n + r'.numFrom lo n + 1 = 10 ^ n := by
  induction n with
  | zero => rfl
  | succ n ih =>
    have below := ih fun k hk => h k (hk.trans n.lt_succ_self)
    have top := congrArg (· * 10 ^ n) (h n n.lt_succ_self)
    simp only [Reg.numFrom, pow_succ] at top ⊢
    linarith

end

section

variable {r r' : Reg} {fl : Field}

/-- Two fields spell the same number exactly if they have the same cells. -/
theorem Reg.num_eq_iff : r.num fl = r'.num fl ↔ ∀ i, fl.has i = true → r.cell i = r'.cell i :=
  ⟨fun h _ hi => Reg.cell_eq_of_num_eq h hi, fun h => Reg.numFrom_eq_of_cell_eq fun _ hk => h _ (Field.has_lo_add hk)⟩

@[simp] theorem Reg.num_zero (fl : Field) : Reg.zero.num fl = 0 := Reg.numFrom_zero fl.lo fl.width

theorem Reg.num_eq_zero_iff : r.num fl = 0 ↔ ∀ i, fl.has i = true → r.cell i = 0 := by
  rw [← Reg.num_zero fl, Reg.num_eq_iff]
  simp only [Reg.cell_zero]

/-- Cells that add up to 9 everywhere in a field spell numbers that add up to `10 ^ n - 1` (R157). -/
theorem Reg.num_add_num_of_cell_add_eq_nine (h : ∀ i, fl.has i = true → (r.cell i).val + (r'.cell i).val = 9) :
    r.num fl + r'.num fl + 1 = 10 ^ fl.width :=
  Reg.numFrom_add_numFrom_of_cell_add_eq_nine fun _ hk => h _ (Field.has_lo_add hk)

/-- The register whose cells are all 9. -/
def Reg.nines : Reg := .tab fun _ => 9

theorem Reg.cell_nines {i : Nat} (h : i < 14) : Reg.nines.cell i = 9 := by
  rw [Reg.nines, Reg.cell_tab, if_pos h]

variable (inside : fl.hi < 14)

include inside

theorem Reg.num_nines : Reg.nines.num fl + 1 = 10 ^ fl.width := by
  have complement := Reg.num_add_num_of_cell_add_eq_nine (fl := fl) (r := Reg.nines) (r' := Reg.zero) fun i hi => by
    rw [Reg.cell_nines (Field.lt_of_has inside hi), Reg.cell_zero]
    rfl
  rwa [Reg.num_zero] at complement

/-- The largest number of a field is the one whose digits are all 9. -/
theorem Reg.num_add_one_eq_iff : r.num fl + 1 = 10 ^ fl.width ↔ ∀ i, fl.has i = true → r.cell i = 9 := by
  rw [← Reg.num_nines inside, Nat.add_right_cancel_iff, Reg.num_eq_iff]
  exact forall₂_congr fun i hi => by rw [Reg.cell_nines (Field.lt_of_has inside hi)]

end

namespace Machine

/-- The constant 1 of a nonempty field spells 1 (R129). -/
theorem oneField_num {fl : Field} (nonempty : fl.lo ≤ fl.hi) (inside : fl.hi < 14) : (oneField fl).num fl = 1 := by
  have units : (oneField fl).cell fl.lo = 1 := by
    rw [oneField_cell fl fl.lo (by omega), if_pos ⟨(fl.has_iff _).2 ⟨le_rfl, nonempty⟩, rfl⟩]
  have tens : (oneField fl).numFrom (fl.lo + 1) (fl.hi - fl.lo) = 0 := by
    rw [← Reg.numFrom_zero (fl.lo + 1) (fl.hi - fl.lo)]
    refine Reg.numFrom_eq_of_cell_eq fun k hk => ?_
    rw [oneField_cell fl _ (by omega), if_neg (by omega), Reg.cell_zero]
  rw [Reg.num, Field.width_eq nonempty, Reg.numFrom_succ_eq_units_add_tens, units, tens]
  rfl

/-! ## What a type-C instruction that has a range answers -/

section

variable {ws : WordSel} {s : State} {fl : Field}

/-- Where the field has a range, a type-C instruction answers its operation over that field (R183). Below, `exec` is opened first,
so that the operation is read off the instruction's own meaning. -/
theorem typeC_of_field {op : Field → State → State} (h : ws.field s.p = some fl) :
    typeC ws s op = .next (op fl (s.setWs ws)) :=
  (typeC_next_iff ws s _ op).2 ⟨fl, h, rfl⟩

@[simp] theorem State.reg_setWs (s : State) (ws : WordSel) (z : RegName) : (s.setWs ws).reg z = s.reg z := by
  cases z <;> rfl

theorem keepsOutside_onField (fl : Field) (r : Reg) (g : Nat → Digit) : KeepsOutside fl r (r.onField fl g) :=
  fun i _ outside => r.cell_onField_outside fl g i outside

variable (ws s fl) (z : RegName) (g : Nat → Digit)

/-- Replacing cells of the field of one register is what the operations that give no carry do (R184). -/
theorem writesField_onField : WritesField z fl s ((s.setWs ws).setReg z (((s.setWs ws).reg z).onField fl g)) := by
  rw [State.reg_setWs, WritesField, State.reg_setReg]
  refine ⟨?_, keepsOutside_onField fl _ g⟩
  cases z <;> rfl

/-- Replacing cells of the field of one register, and CY, is what the arithmetic does (R184). -/
theorem writesFieldAndCarry_onField (carry : Bool) :
    WritesFieldAndCarry z fl s { (s.setWs ws).setReg z (((s.setWs ws).reg z).onField fl g) with cy := carry } := by
  rw [State.reg_setWs]
  cases z <;> exact ⟨rfl, keepsOutside_onField fl _ g⟩

end

/-! ## Arithmetic -/

section

variable {fl : Field} (inside : fl.hi < 14) (ws : WordSel) (s : State) (z : RegName) (x y : Reg)

include inside

/-- The difference as a natural number, its ten's complement where it is negative (R128). -/
theorem State.subInto_num_eq_mod :
    ((s.subInto z x y fl).reg z).num fl = (x.num fl + 10 ^ fl.width - y.num fl) % 10 ^ fl.width := by
  have residue := s.subInto_num z x y inside
  have fits : y.num fl ≤ x.num fl + 10 ^ fl.width := (y.num_lt fl).le.trans (Nat.le_add_left _ _)
  zify [fits]
  rw [residue, add_sub_right_comm, Int.add_emod_right]

theorem addsInto_addInto : AddsInto z (x.num fl) (y.num fl) fl s ((s.setWs ws).addInto z x y fl) := by
  refine ⟨State.addInto_num z x y _ inside, ?_, writesFieldAndCarry_onField ws s fl z _ _⟩
  rw [Bool.eq_iff_iff, decide_eq_true_iff, State.addInto_cy_iff z x y _ inside]

theorem subtractsInto_subInto : SubtractsInto z (x.num fl) (y.num fl) fl s ((s.setWs ws).subInto z x y fl) := by
  refine ⟨State.subInto_num_eq_mod inside _ z x y, ?_, writesFieldAndCarry_onField ws s fl z _ _⟩
  rw [Bool.eq_iff_iff, decide_eq_true_iff, State.subInto_cy_iff z x y _ inside]

end

/-- Settles O27: each addition is `add` over the field of its mode. -/
theorem additionsSumTheField : Obligations.AdditionsSumTheField := by
  intro ws s fl h
  simp only [exec]
  obtain ⟨-, inside, -⟩ := ws.field_bounds s.p fl h
  have adds := addsInto_addInto inside ws s
  exact ⟨⟨_, typeC_of_field h, adds .a s.a s.b⟩, ⟨_, typeC_of_field h, adds .a s.a s.c⟩,
    ⟨_, typeC_of_field h, adds .c s.a s.c⟩, ⟨_, typeC_of_field h, adds .c s.c s.c⟩⟩

/-- Settles O29: each subtraction is `subtract` over the field of its mode. -/
theorem subtractionsTakeTheField : Obligations.SubtractionsTakeTheField := by
  intro ws s fl h
  simp only [exec]
  obtain ⟨-, inside, -⟩ := ws.field_bounds s.p fl h
  have subtracts := subtractsInto_subInto inside ws s
  exact ⟨⟨_, typeC_of_field h, subtracts .a s.a s.b⟩, ⟨_, typeC_of_field h, subtracts .a s.a s.c⟩,
    ⟨_, typeC_of_field h, subtracts .c s.a s.c⟩⟩

/-! ## Counting by one -/

section

variable {fl : Field} (nonempty : fl.lo ≤ fl.hi) (inside : fl.hi < 14) (ws : WordSel) (s : State) (z : RegName) (x : Reg)

include nonempty inside

theorem addsInto_oneField : AddsInto z (x.num fl) 1 fl s ((s.setWs ws).addInto z x (oneField fl) fl) := by
  have adds := addsInto_addInto inside ws s z x (oneField fl)
  rwa [oneField_num nonempty inside] at adds

theorem subtractsInto_oneField : SubtractsInto z (x.num fl) 1 fl s ((s.setWs ws).subInto z x (oneField fl) fl) := by
  have subtracts := subtractsInto_subInto inside ws s z x (oneField fl)
  rwa [oneField_num nonempty inside] at subtracts

end

section

variable {z : RegName} {fl : Field} {s t : State}

/-- Adding 1 overflows exactly the number whose digits are all 9 (R165, R181). -/
theorem AddsInto.cy_iff_nines {x : Reg} (inside : fl.hi < 14) (h : AddsInto z (x.num fl) 1 fl s t) :
    t.cy = true ↔ ∀ i, fl.has i = true → x.cell i = 9 := by
  obtain ⟨-, carry, -⟩ := h
  rw [carry, decide_eq_true_iff, ← Reg.num_add_one_eq_iff inside]
  exact ⟨fun le => Nat.le_antisymm (x.num_lt fl) le, Eq.ge⟩

/-- Taking 1 borrows exactly from 0 (R161, R177). -/
theorem SubtractsInto.cy_iff_zero {x : Nat} (h : SubtractsInto z x 1 fl s t) : t.cy = true ↔ x = 0 := by
  obtain ⟨-, carry, -⟩ := h
  rw [carry, decide_eq_true_iff, Nat.lt_one_iff]

/-- Taking 1 from 0 leaves all nines (R161, R177). -/
theorem SubtractsInto.nines_of_cy {x : Nat} (inside : fl.hi < 14) (h : SubtractsInto z x 1 fl s t) (carry : t.cy = true) :
    ∀ i, fl.has i = true → (t.reg z).cell i = 9 := by
  have zero := h.cy_iff_zero.1 carry
  obtain ⟨difference, -, -⟩ := h
  have positive : 0 < 10 ^ fl.width := by positivity
  rw [zero, Nat.zero_add, Nat.mod_eq_of_lt (by omega)] at difference
  rw [← Reg.num_add_one_eq_iff inside, difference, Nat.sub_add_cancel positive]

end

/-- Settles O28: each increment adds the constant 1 of the field. -/
theorem incrementsAddOne : Obligations.IncrementsAddOne := by
  intro ws s fl h
  simp only [exec]
  obtain ⟨nonempty, inside, -⟩ := ws.field_bounds s.p fl h
  have incA := addsInto_oneField nonempty inside ws s .a s.a
  have incC := addsInto_oneField nonempty inside ws s .c s.c
  exact ⟨⟨_, typeC_of_field h, incA, incA.cy_iff_nines inside⟩, ⟨_, typeC_of_field h, incC, incC.cy_iff_nines inside⟩⟩

/-- Settles O30: each decrement subtracts the constant 1 of the field. -/
theorem decrementsTakeOne : Obligations.DecrementsTakeOne := by
  intro ws s fl h
  simp only [exec]
  obtain ⟨nonempty, inside, -⟩ := ws.field_bounds s.p fl h
  have decA := subtractsInto_oneField nonempty inside ws s .a s.a
  have decC := subtractsInto_oneField nonempty inside ws s .c s.c
  exact ⟨⟨_, typeC_of_field h, decA, decA.cy_iff_zero, decA.nines_of_cy inside⟩,
    ⟨_, typeC_of_field h, decC, decC.cy_iff_zero, decC.nines_of_cy inside⟩⟩

/-! ## Complements -/

/-- Settles O31: `NEG_C` subtracts C from 0, and 0 borrows for every number but 0. -/
theorem negCMakesTheTensComplement : Obligations.NegCMakesTheTensComplement := by
  intro ws s fl h
  simp only [exec]
  obtain ⟨-, inside, -⟩ := ws.field_bounds s.p fl h
  obtain ⟨difference, carry, frame⟩ := subtractsInto_subInto inside ws s .c Reg.zero s.c
  rw [Reg.num_zero, Nat.zero_add] at difference
  simp only [Reg.num_zero, Nat.pos_iff_ne_zero] at carry
  exact ⟨_, typeC_of_field h, difference, carry, frame⟩

section

variable {fl : Field} (inside : fl.hi < 14) (s : State) (r : RegName)

include inside

theorem State.ninesComplement_cell_val (i : Nat) (hi : fl.has i = true) :
    (((s.ninesComplement r fl).reg r).cell i).val = 9 - ((s.reg r).cell i).val := by
  rw [State.ninesComplement_cell _ _ _ _ (Field.lt_of_has inside hi), if_pos hi, Digit.val_ofNat]
  omega

/-- A field and its nine's complement add up to all nines (R157). -/
theorem State.ninesComplement_num :
    ((s.ninesComplement r fl).reg r).num fl + (s.reg r).num fl + 1 = 10 ^ fl.width := by
  refine Reg.num_add_num_of_cell_add_eq_nine fun i hi => ?_
  rw [s.ninesComplement_cell_val inside r i hi]
  omega

/-- The nine's complement undoes itself, whatever else was written between (R157). -/
theorem State.reg_ninesComplement_of_reg_eq {t : State} (ht : t.reg r = (s.ninesComplement r fl).reg r) :
    (t.ninesComplement r fl).reg r = s.reg r := by
  refine Reg.ext_cell _ _ fun i hi => ?_
  by_cases hin : fl.has i = true
  · apply Fin.ext
    rw [t.ninesComplement_cell_val inside r i hin, ht, s.ninesComplement_cell_val inside r i hin]
    omega
  · rw [State.ninesComplement_cell _ _ _ _ hi, if_neg hin, ht, State.ninesComplement_cell _ _ _ _ hi, if_neg hin]

end

/-- Settles O32: the cells of the field become their complements to 9, and a second run meets the same field. -/
theorem negCM1MakesTheNinesComplement : Obligations.NegCM1MakesTheNinesComplement := by
  intro ws s fl h
  simp only [exec]
  obtain ⟨-, inside, -⟩ := ws.field_bounds s.p fl h
  exact ⟨(s.setWs ws).ninesComplement .c fl, _, typeC_of_field h, (s.setWs ws).ninesComplement_cell_val inside .c,
    (s.setWs ws).ninesComplement_num inside .c, rfl, writesFieldAndCarry_onField ws s fl .c _ true,
    typeC_of_field h, (s.setWs ws).reg_ninesComplement_of_reg_eq inside .c rfl⟩

/-! ## Tests -/

section

variable (ws : WordSel) (s : State) (fl : Field)

theorem writesCarry_compareGeField (r r' : Reg) :
    WritesCarry (s.cy || decide (r.num fl < r'.num fl)) s ((s.setWs ws).compareGeField r r' fl) := by
  have carry : ((s.setWs ws).compareGeField r r' fl).cy = (s.cy || decide (r.num fl < r'.num fl)) := by
    rw [Bool.eq_iff_iff, State.compareGeField_cy_iff, Bool.or_eq_true, decide_eq_true_iff]
    rfl
  rw [← carry]
  rfl

/-- A number is at least 1 unless it is 0 (R153, R169). -/
theorem writesCarry_compareGeField_oneField {fl : Field} (nonempty : fl.lo ≤ fl.hi) (inside : fl.hi < 14) (r : Reg) :
    WritesCarry (s.cy || decide (r.num fl = 0)) s ((s.setWs ws).compareGeField r (oneField fl) fl) := by
  have tests := writesCarry_compareGeField ws s fl r (oneField fl)
  simpa only [oneField_num nonempty inside, Nat.lt_one_iff] using tests

/-- A number is 0 unless one of its digits is not (R150, R163). -/
theorem writesCarry_compareZeroField (r : Reg) :
    WritesCarry (s.cy || decide (r.num fl ≠ 0)) s ((s.setWs ws).compareZeroField r fl) := by
  have carry : ((s.setWs ws).compareZeroField r fl).cy = (s.cy || decide (r.num fl ≠ 0)) := by
    rw [Bool.eq_iff_iff, State.compareZeroField_cy_iff, Bool.or_eq_true, decide_eq_true_iff, Ne, Reg.num_eq_zero_iff]
    push Not
    rfl
  rw [← carry]
  rfl

end

/-- Settles O33: each comparison is `compare-ge` over the field of its mode. -/
theorem compareGeTestsTheField : Obligations.CompareGeTestsTheField := by
  intro ws s fl h
  simp only [exec]
  exact ⟨⟨_, typeC_of_field h, writesCarry_compareGeField ws s fl s.a s.c⟩,
    ⟨_, typeC_of_field h, writesCarry_compareGeField ws s fl s.a s.b⟩⟩

/-- Settles O34: each test compares with the constant 1 of the field. -/
theorem atLeastOneTestsTheField : Obligations.AtLeastOneTestsTheField := by
  intro ws s fl h
  simp only [exec]
  obtain ⟨nonempty, inside, -⟩ := ws.field_bounds s.p fl h
  have tests := writesCarry_compareGeField_oneField ws s nonempty inside
  exact ⟨⟨_, typeC_of_field h, tests s.c⟩, ⟨_, typeC_of_field h, tests s.a⟩⟩

/-- Settles O35: each test is `compare-zero` over the field of its mode. -/
theorem zeroTestsTheField : Obligations.ZeroTestsTheField := by
  intro ws s fl h
  simp only [exec]
  exact ⟨⟨_, typeC_of_field h, writesCarry_compareZeroField ws s fl s.b⟩,
    ⟨_, typeC_of_field h, writesCarry_compareZeroField ws s fl s.c⟩⟩

/-! ## Shifts -/

section

variable {fl : Field} (nonempty : fl.lo ≤ fl.hi) (inside : fl.hi < 14) (s : State) (r : RegName)

include nonempty inside

/-- The digits move one up and 0 comes in below, so the field is ten times what stood below its highest digit (R132). -/
theorem State.shiftLeft_num : ((s.shiftLeft r fl).reg r).num fl = 10 * (s.reg r).num fl % 10 ^ fl.width := by
  have units : ((s.shiftLeft r fl).reg r).cell fl.lo = 0 := by
    rw [State.shiftLeft_cell _ _ _ _ (by omega), if_pos ((fl.has_iff _).2 ⟨le_rfl, nonempty⟩), if_pos rfl]
  have tens : ((s.shiftLeft r fl).reg r).numFrom (fl.lo + 1) (fl.hi - fl.lo) =
      (s.reg r).numFrom fl.lo (fl.hi - fl.lo) := by
    refine Reg.numFrom_eq_of_cell_eq fun k hk => ?_
    have source : fl.lo + 1 + k - 1 = fl.lo + k := by omega
    rw [State.shiftLeft_cell _ _ _ _ (by omega), if_pos ((fl.has_iff _).2 (by omega)), if_neg (by omega), source]
  rw [Reg.num, Reg.num, Field.width_eq nonempty, Reg.numFrom_succ_eq_units_add_tens, units, tens,
    Reg.ten_mul_numFrom_succ_mod]
  exact Nat.zero_add _

/-- The digits move one down and 0 comes in above, so the field is what stood above its lowest digit (R132). -/
theorem State.shiftRight_num : ((s.shiftRight r fl).reg r).num fl = (s.reg r).num fl / 10 := by
  have highest : ((s.shiftRight r fl).reg r).cell (fl.lo + (fl.hi - fl.lo)) = 0 := by
    rw [State.shiftRight_cell _ _ _ _ (by omega), if_pos ((fl.has_iff _).2 (by omega)), if_pos (by omega)]
  have below : ((s.shiftRight r fl).reg r).numFrom fl.lo (fl.hi - fl.lo) =
      (s.reg r).numFrom (fl.lo + 1) (fl.hi - fl.lo) := by
    refine Reg.numFrom_eq_of_cell_eq fun k hk => ?_
    rw [State.shiftRight_cell _ _ _ _ (by omega), if_pos ((fl.has_iff _).2 (by omega)), if_neg (by omega),
      Nat.add_right_comm]
  rw [Reg.num, Reg.num, Field.width_eq nonempty, Reg.numFrom, highest, below, Reg.numFrom_succ_div_ten]
  exact Nat.add_eq_left.2 (Nat.zero_mul _)

end

/-- Settles O39: `SHL_A` is the left shift over the field of its mode. -/
theorem leftShiftMultipliesByTen : Obligations.LeftShiftMultipliesByTen := by
  intro ws s fl h
  simp only [exec]
  obtain ⟨nonempty, inside, -⟩ := ws.field_bounds s.p fl h
  exact ⟨_, typeC_of_field h, (s.setWs ws).shiftLeft_num nonempty inside .a,
    writesField_onField ws s fl .a _⟩

/-- Settles O40: each right shift is the one of its register over the field of its mode. -/
theorem rightShiftsDivideByTen : Obligations.RightShiftsDivideByTen := by
  intro ws s fl h
  simp only [exec]
  obtain ⟨nonempty, inside, -⟩ := ws.field_bounds s.p fl h
  have divides := (s.setWs ws).shiftRight_num nonempty inside
  exact ⟨⟨_, typeC_of_field h, divides .a, writesField_onField ws s fl .a _⟩,
    ⟨_, typeC_of_field h, divides .b, writesField_onField ws s fl .b _⟩,
    ⟨_, typeC_of_field h, divides .c, writesField_onField ws s fl .c _⟩⟩

/-! ## Clears, copies and exchanges -/

section

variable {fl : Field} {s : State}

theorem State.exchangeField_keepsOutside {r r' : RegName} (ne : r ≠ r') :
    KeepsOutside fl (s.reg r) ((s.exchangeField r r' fl).reg r) ∧
      KeepsOutside fl (s.reg r') ((s.exchangeField r r' fl).reg r') := by
  rw [State.exchangeField, State.reg_setReg, State.reg_setReg_ne _ _ _ _ ne, State.reg_setReg]
  exact ⟨keepsOutside_onField fl _ _, keepsOutside_onField fl _ _⟩

variable (inside : fl.hi < 14)

include inside

theorem State.clearField_cell_of_has (r : RegName) :
    ∀ i, fl.has i = true → ((s.clearField r fl).reg r).cell i = 0 := by
  intro i hi
  rw [State.clearField_cell _ _ _ _ (Field.lt_of_has inside hi), if_pos hi]

theorem State.copyField_cell_of_has (dst src : RegName) :
    ∀ i, fl.has i = true → ((s.copyField dst src fl).reg dst).cell i = (s.reg src).cell i := by
  intro i hi
  rw [State.copyField_cell _ _ _ _ _ (Field.lt_of_has inside hi), if_pos hi]

theorem State.exchangeField_cell_of_has {r r' : RegName} (ne : r ≠ r') :
    ∀ i, fl.has i = true → ((s.exchangeField r r' fl).reg r).cell i = (s.reg r').cell i ∧
      ((s.exchangeField r r' fl).reg r').cell i = (s.reg r).cell i := by
  intro i hi
  simpa only [if_pos hi] using s.exchangeField_cell r r' fl i (Field.lt_of_has inside hi) ne

end

/-- Settles O36: each clear is the one of its register over the field of its mode. -/
theorem clearsZeroTheField : Obligations.ClearsZeroTheField := by
  intro ws s fl h
  simp only [exec]
  obtain ⟨-, inside, -⟩ := ws.field_bounds s.p fl h
  have zeroes := State.clearField_cell_of_has (s := s.setWs ws) inside
  exact ⟨⟨_, typeC_of_field h, writesField_onField ws s fl .a _, zeroes .a⟩,
    ⟨_, typeC_of_field h, writesField_onField ws s fl .b _, zeroes .b⟩,
    ⟨_, typeC_of_field h, writesField_onField ws s fl .c _, zeroes .c⟩⟩

/-- Settles O37: each copy is the one of its two registers over the field of its mode. -/
theorem copiesMoveTheField : Obligations.CopiesMoveTheField := by
  intro ws s fl h
  simp only [exec]
  obtain ⟨-, inside, -⟩ := ws.field_bounds s.p fl h
  have copies := State.copyField_cell_of_has (s := s.setWs ws) inside
  exact ⟨⟨_, typeC_of_field h, writesField_onField ws s fl .c _, copies .c .b⟩,
    ⟨_, typeC_of_field h, writesField_onField ws s fl .b _, copies .b .a⟩,
    ⟨_, typeC_of_field h, writesField_onField ws s fl .a _, copies .a .c⟩⟩

/-- Settles O38: each exchange is the one of its two registers over the field of its mode. -/
theorem exchangesSwapTheField : Obligations.ExchangesSwapTheField := by
  intro ws s fl h
  simp only [exec]
  obtain ⟨-, inside, -⟩ := ws.field_bounds s.p fl h
  have keeps {r r' : RegName} (ne : r ≠ r') := State.exchangeField_keepsOutside (fl := fl) (s := s.setWs ws) ne
  have swaps {r r' : RegName} (ne : r ≠ r') := State.exchangeField_cell_of_has (s := s.setWs ws) inside ne
  have bc : RegName.b ≠ .c := nofun
  have ab : RegName.a ≠ .b := nofun
  have ac : RegName.a ≠ .c := nofun
  exact ⟨⟨_, typeC_of_field h, rfl, (keeps bc).1, (keeps bc).2, swaps bc⟩,
    ⟨_, typeC_of_field h, rfl, (keeps ab).1, (keeps ab).2, swaps ab⟩,
    ⟨_, typeC_of_field h, rfl, (keeps ac).1, (keeps ac).2, swaps ac⟩⟩

/-! ## The frame of the class (R183, R184) -/

/-- Of the state `u`, `v` has new values at most in A, B and C, in cells of the field, and in CY. -/
structure TouchesField (fl : Field) (u v : State) : Prop where
  frame : v = { u with a := v.a, b := v.b, c := v.c, cy := v.cy }
  keepsA : KeepsOutside fl u.a v.a
  keepsB : KeepsOutside fl u.b v.b
  keepsC : KeepsOutside fl u.c v.c

section

variable {fl : Field} {u v : State}

theorem touchesField_refl (fl : Field) (u : State) : TouchesField fl u u :=
  ⟨rfl, fun _ _ _ => rfl, fun _ _ _ => rfl, fun _ _ _ => rfl⟩

theorem TouchesField.setCarry (h : TouchesField fl u v) (carry : Bool) : TouchesField fl u { v with cy := carry } := by
  obtain ⟨frame, keepsA, keepsB, keepsC⟩ := h
  exact ⟨congrArg (fun t : State => { t with cy := carry }) frame, keepsA, keepsB, keepsC⟩

theorem TouchesField.setReg (h : TouchesField fl u v) {z : RegName} (hz : z ∈ [RegName.a, .b, .c]) (g : Nat → Digit) :
    TouchesField fl u (v.setReg z ((u.reg z).onField fl g)) := by
  obtain ⟨frame, keepsA, keepsB, keepsC⟩ := h
  have keeps := keepsOutside_onField fl (u.reg z) g
  cases z with
  | a => exact ⟨congrArg (State.setReg · .a _) frame, keeps, keepsB, keepsC⟩
  | b => exact ⟨congrArg (State.setReg · .b _) frame, keepsA, keeps, keepsC⟩
  | c => exact ⟨congrArg (State.setReg · .c _) frame, keepsA, keepsB, keeps⟩
  | d | e | f | m => simp at hz

end

/-- Every instruction with a word-select operand runs one operation over its field, which sets CY, or replaces the field of one
or two registers, or does both. -/
theorem exec_eq_typeC_touchesField {i : Instr} {ws : WordSel} (h : i.wordSel = some ws) (s : State) :
    ∃ op, exec i s = typeC ws s op ∧ ∀ fl u, TouchesField fl u (op fl u) := by
  cases i with
  | ifBEq0 | ifAGeC | ifCGe1 | ifCEq0 | ifAGeB | ifAGe1 =>
    cases h
    rw [exec]
    refine ⟨_, rfl, fun fl u => ?_⟩
    exact (touchesField_refl fl u).setCarry _
  | clrA | clrB | clrC | bToC | aToB | cToA | shlA | shrA | shrB | shrC =>
    cases h
    rw [exec]
    refine ⟨_, rfl, fun fl u => ?_⟩
    exact (touchesField_refl fl u).setReg (by simp) _
  | bExchC | aExchB | aExchC =>
    cases h
    rw [exec]
    refine ⟨_, rfl, fun fl u => ?_⟩
    exact ((touchesField_refl fl u).setReg (by simp) _).setReg (by simp) _
  | aSubBToA | aSubCToA | aSubCToC | decA | decC | negC | negCM1
  | aAddBToA | aAddCToA | aAddCToC | cAddCToC | incA | incC =>
    cases h
    rw [exec]
    refine ⟨_, rfl, fun fl u => ?_⟩
    exact ((touchesField_refl fl u).setReg (by simp) _).setCarry _
  | _ => cases h

/-- Settles O41: the operation runs exactly where the field has a range, and it touches nothing outside the field. -/
theorem typeCTouchesOnlyTheField : Obligations.TypeCTouchesOnlyTheField := by
  intro i ws s hi
  obtain ⟨op, runs, touches⟩ := exec_eq_typeC_touchesField hi s
  rw [runs]
  split
  next none => exact (typeC_fault_iff ws s op _).2 ⟨none, rfl⟩
  next fl field =>
    obtain ⟨frame, keepsA, keepsB, keepsC⟩ := touches fl (s.setWs ws)
    exact ⟨_, typeC_of_field field, frame, keepsA, keepsB, keepsC⟩

end Machine

end Sys2Proof

/-! # The status instructions, for a number that names a flag (43_status.md, R200 to R203) -/

namespace Sys2Proof

theorem flagNumberOk_iff (n : BitVec 4) : flagNumberOk n = true ↔ n.toNat < 12 := decide_eq_true_iff

/-- The status word `CLEAR_STATUS` writes has every flag 0 (R203). -/
@[simp] theorem flagAt_zero (k : BitVec 4) : flagAt 0 k = false := BitVec.getLsbD_zero

namespace Machine

/-- Settles O42: set and reset write one flag of the status word, clear writes the word with every flag 0, and the state each of
them gives differs from `s` in its status word alone. -/
theorem statusInstructionsWriteTheirFlags : Obligations.StatusInstructionsWriteTheirFlags := by
  intro s n hn
  have ok : flagNumberOk n = true := (flagNumberOk_iff n).2 hn
  refine ⟨⟨_, exec_setS_of_flagNumberOk ok s, rfl, ?set⟩, ⟨_, exec_resetS_of_flagNumberOk ok s, rfl, ?reset⟩,
    ⟨_, rfl, rfl, ?clear⟩⟩
  case set => exact fun k => flagAt_setFlag s.status n k true hn
  case reset => exact fun k => flagAt_setFlag s.status n k false hn
  case clear => exact flagAt_zero

/-- Settles O43: `TEST_S n` adds flag `n` to the carry it finds, so it can set CY and never clears it. -/
theorem statusTestCopiesTheFlag : Obligations.StatusTestCopiesTheFlag := by
  intro s n hn
  have carry : (if flagAt s.status n = true then true else s.cy) = (s.cy || flagAt s.status n) := by
    rw [Bool.if_true_left, Bool.decide_eq_true, Bool.or_comm]
  rw [carry]
  exact ⟨_, exec_testS_of_flagNumberOk ((flagNumberOk_iff n).2 hn) s, rfl⟩

end Machine

end Sys2Proof

/-! # The pointer instructions (44_pointer.md, R210 to R213) -/

namespace Sys2Proof

namespace Machine

/-- The count down is modulo 16: from 0 it gives 15 (R211). -/
theorem toNat_pointer_sub_one (p : BitVec 4) : (p - 1).toNat = (p.toNat + 15) % 16 := by
  rw [BitVec.toNat_sub, Nat.add_comm]
  rfl

/-- The count up is modulo 16: from 15 it gives 0, and there is no wrap at 14 (R213). -/
theorem toNat_pointer_add_one (p : BitVec 4) : (p + 1).toNat = (p.toNat + 1) % 16 := BitVec.toNat_add p 1

/-- Settles O45: the state each of the three gives differs from `s` in its pointer alone, which is loaded or counted. -/
theorem pointerInstructionsWriteP : Obligations.PointerInstructionsWriteP := by
  intro s n
  refine ⟨⟨_, rfl, ?load⟩, ⟨_, rfl, rfl, ?down⟩, ⟨_, rfl, rfl, ?up⟩⟩
  case load => rfl
  case down => exact toNat_pointer_sub_one s.p
  case up => exact toNat_pointer_add_one s.p

/-- Settles O46: `TEST_P n` adds the comparison's result to the carry it finds, so it can set CY and never clears it. -/
theorem pointerTestComparesP : Obligations.PointerTestComparesP := by
  intro s n
  have carry : (if s.p = n then true else s.cy) = (s.cy || s.p == n) := by
    split
    next equal => rw [beq_iff_eq.2 equal, Bool.or_true]
    next differs => rw [beq_eq_false_iff_ne.2 differs, Bool.or_false]
  rw [carry]
  exact ⟨_, rfl, rfl⟩

end Machine

end Sys2Proof

/-! # Data entry and display (45_data_entry_display.md, R220 to R229), and the model faults (60_exceptions.md, R281 to R283) -/

namespace Sys2Proof

/-- Writing a field of one cell changes that cell and no other (R124). -/
theorem Reg.cell_onField_single (r : Reg) (k : Nat) (g : Nat → Digit) (i : Nat) (h : i < 14) :
    (r.onField ⟨k, k⟩ g).cell i = if i = k then g i else r.cell i := by
  have single : (⟨k, k⟩ : Field).has i = true ↔ i = k :=
    (Field.has_iff _ i).trans (eq_comm.trans le_antisymm_iff).symm
  rw [Reg.cell_onField r ⟨k, k⟩ g i h]
  simp only [single]

namespace Machine

/-! ## `LOAD_CONST` (R220, R283) -/

section

variable {s : State} {n : BitVec 4}

/-- A constant above 9 faults, whatever the pointer is (R282, R283). -/
theorem exec_loadConst_of_ten_le (h : 10 ≤ n.toNat) : exec (.loadConst n) s = .fault .nonBcdConstant :=
  if_pos h

/-- A digit faults at a pointer that is no cell (R281, R283). -/
theorem exec_loadConst_of_pointer_ge (h : n.toNat < 10) (hp : 14 ≤ s.p.toNat) :
    exec (.loadConst n) s = .fault .pointerOutOfRange :=
  (if_neg h.not_ge).trans (if_pos hp)

/-- A digit is written at a pointer that is a cell, and the pointer counted down (R220). -/
theorem exec_loadConst_of_pointer_lt (h : n.toNat < 10) (hp : s.p.toNat < 14) :
    exec (.loadConst n) s =
      .next { s with c := s.c.onField ⟨s.p.toNat, s.p.toNat⟩ fun _ => .ofNat n.toNat, p := s.p - 1 } :=
  (if_neg h.not_ge).trans (if_neg hp.not_ge)

end

/-- Settles O47: the constant and then the pointer decide between the two faults and the write of the one cell. -/
theorem loadConstWritesTheCellAtP : Obligations.LoadConstWritesTheCellAtP := by
  refine fun s n => ⟨fun hn hp => ?_, exec_loadConst_of_ten_le, exec_loadConst_of_pointer_ge⟩
  refine ⟨_, exec_loadConst_of_pointer_lt hn hp, rfl, ?written, fun i hi hne => ?kept, toNat_pointer_sub_one s.p⟩
  case written => rw [Reg.cell_onField_single _ _ _ _ hp, if_pos rfl, Digit.val_ofNat, Nat.mod_eq_of_lt hn]
  case kept => rw [Reg.cell_onField_single _ _ _ _ hi, if_neg hne]

/-! ## The display flag and the whole registers -/

/-- Settles O48: the state each of the two gives differs from `s` in its display flag alone. -/
theorem displayInstructionsWriteDisp : Obligations.DisplayInstructionsWriteDisp :=
  fun _ => ⟨⟨_, rfl, rfl⟩, ⟨_, rfl, rfl⟩⟩

/-- Settles O49: each transfer answers `s` with the named registers replaced; after the clear every register is `Reg.zero`. -/
theorem wholeRegisterTransfers : Obligations.WholeRegisterTransfers := by
  intro s
  refine ⟨⟨_, rfl, rfl⟩, ⟨_, rfl, rfl⟩, ⟨_, rfl, rfl⟩, ⟨_, rfl, rfl⟩, ⟨_, rfl, rfl⟩, ⟨_, rfl, rfl, fun r i _ => ?_⟩⟩
  cases r with
  | a | b | c | d | e | f | m => exact Reg.cell_zero i

/-! ## Where an instruction faults (R281, R282) -/

/-- The instruction `i` meets the fault when the pointer is `p`: it loads a constant above 9, or it would use a pointer of 14 or
15 as a cell index. The instructions that do are exactly these by `exec_fault_iff`. -/
def FaultsAt (p : BitVec 4) (i : Instr) : Fault → Prop
  | .nonBcdConstant => ∃ n : BitVec 4, i = .loadConst n ∧ 10 ≤ n.toNat
  | .pointerOutOfRange =>
    14 ≤ p.toNat ∧ (i.wordSel = some .p ∨ i.wordSel = some .wp ∨ ∃ n : BitVec 4, i = .loadConst n ∧ n.toNat < 10)

section

variable {p : BitVec 4} {i : Instr} {r : Fault}

/-- An instruction with a word-select operand meets one fault only: the field of its mode has no range (R122). -/
theorem faultsAt_iff_of_wordSel {ws : WordSel} (h : i.wordSel = some ws) :
    FaultsAt p i r ↔ ws.field p = none ∧ r = .pointerOutOfRange := by
  have notLoad : ∀ n, i ≠ .loadConst n := by
    rintro n rfl
    cases h
  rw [ws.field_eq_none_iff p]
  cases r with
  | nonBcdConstant => simp [FaultsAt, notLoad]
  | pointerOutOfRange => simp [FaultsAt, notLoad, h]

/-- No other instruction but `LOAD_CONST` meets a fault. -/
theorem not_faultsAt (h : i.wordSel = none) (notLoad : ∀ n, i ≠ .loadConst n) : ¬ FaultsAt p i r := by
  cases r with
  | nonBcdConstant => simp [FaultsAt, notLoad]
  | pointerOutOfRange => simp [FaultsAt, notLoad, h]

/-- The two faults of `LOAD_CONST` exclude each other: the pointer counts for a digit only (R283). -/
theorem faultsAt_loadConst_iff (n : BitVec 4) :
    FaultsAt p (.loadConst n) r ↔
      10 ≤ n.toNat ∧ r = .nonBcdConstant ∨ n.toNat < 10 ∧ 14 ≤ p.toNat ∧ r = .pointerOutOfRange := by
  cases r with
  | nonBcdConstant => simp [FaultsAt]
  | pointerOutOfRange => simp [FaultsAt, Instr.wordSel, and_comm]

theorem exec_loadConst_fault_iff (n : BitVec 4) (s : State) :
    exec (.loadConst n) s = .fault r ↔ FaultsAt s.p (.loadConst n) r := by
  rw [faultsAt_loadConst_iff]
  obtain hn | hn := Nat.lt_or_ge n.toNat 10
  · obtain hp | hp := Nat.lt_or_ge s.p.toNat 14
    · simp [exec_loadConst_of_pointer_lt hn hp, hn.not_ge, hp.not_ge]
    · simp [exec_loadConst_of_pointer_ge hn hp, hn, hn.not_ge, hp, eq_comm]
  · simp [exec_loadConst_of_ten_le hn, hn, hn.not_gt, eq_comm]

/-- Every instruction without a word-select operand but `LOAD_CONST` completes in every state. -/
theorem exec_completes (h : i.wordSel = none) (notLoad : ∀ n, i ≠ .loadConst n) (s : State) : ∃ t, exec i s = .next t := by
  cases i with
  | setS n | testS n | resetS n =>
    simp only [exec, execSetS, execTestS, execResetS]
    split
    · exact ⟨_, rfl⟩
    · exact ⟨_, rfl⟩
  | dataToC =>
    obtain hbank | hbank := Nat.lt_or_ge s.bank.toNat 10
    · exact ⟨_, exec_dataToC_of_lt hbank⟩
    · exact ⟨_, exec_dataToC_of_ge hbank⟩
  | loadConst n => exact absurd rfl (notLoad n)
  | clearStatus | setP | decP | testP | incP | displayToggle | cExchM | cToStack | stackToA | displayOff | mToC
  | downRotate | clearRegs | nop | selRom | ret | keysToRom | cToAddr | cToData | jsb | branch => exact ⟨_, rfl⟩
  | _ => cases h

/-- An instruction ends in a fault exactly where `FaultsAt` says. -/
theorem exec_fault_iff (i : Instr) (s : State) : exec i s = .fault r ↔ FaultsAt s.p i r := by
  cases h : i.wordSel with
  | some ws =>
    obtain ⟨op, runs, -⟩ := exec_eq_typeC_touchesField h s
    rw [runs, typeC_fault_iff, faultsAt_iff_of_wordSel h]
  | none =>
    by_cases load : ∃ n, i = .loadConst n
    · obtain ⟨n, rfl⟩ := load
      exact exec_loadConst_fault_iff n s
    · have notLoad : ∀ n, i ≠ .loadConst n := not_exists.1 load
      obtain ⟨t, completes⟩ := exec_completes h notLoad s
      rw [completes]
      exact iff_of_false nofun (not_faultsAt h notLoad)

/-- A step faults exactly where its instruction does: the common steps keep the pointer, and a report is no fault (R280). -/
theorem step_fault_iff (s : State) : step s = .fault r ↔ ∃ i, decode s.fetch = .ok i ∧ FaultsAt s.p i r := by
  obtain ⟨i, hi, runs⟩ | ⟨u, hu, reports⟩ := step_cases s
  · rw [runs, exec_fault_iff, State.beginCycle_p]
    simp [hi]
  · rw [reports]
    simp [hu]

end

/-- Settles O17: `FaultsAt` names, for each of the two faults, the condition of the statement. -/
theorem stepFaultsExactlyWhere : Obligations.StepFaultsExactlyWhere := by
  intro s r
  rw [step_fault_iff]
  cases r with
  | nonBcdConstant => rfl
  | pointerOutOfRange => rfl

end Machine

end Sys2Proof

/-! # The ROM-select class (46_rom_select_misc.md, R240 to R244) -/

namespace Sys2Proof.Machine

/-! ## The halves of the program counter as the places of a transfer (R13, R27) -/

section

variable (s : State)

/-- A write to the offset keeps the page and everything outside the program counter. -/
theorem State.setOff_transfers (off : BitVec 8) :
    AgreeButWs (s.setOff off) { s with pc := (s.setOff off).pc } ∧ pageOf (s.setOff off).pc = pageOf s.pc ∧
      offOf (s.setOff off).pc = off := by
  rw [State.setOff_pc]
  exact ⟨rfl, pageOf_addrOf _ _, offOf_addrOf _ _⟩

/-- A write to the page keeps the offset and everything outside the program counter. -/
theorem State.setPage_transfers (g : BitVec 3) :
    AgreeButWs (s.setPage g) { s with pc := (s.setPage g).pc } ∧ pageOf (s.setPage g).pc = g ∧
      offOf (s.setPage g).pc = offOf s.pc := by
  rw [State.setPage_pc]
  exact ⟨rfl, pageOf_addrOf _ _, offOf_addrOf _ _⟩

end

/-- Settles O52: `NOP` answers the state it runs on, `SEL_ROM` writes the page, and the other two write the offset, with RET or
with the latched key code. -/
theorem romSelectInstructionsWritePc : Obligations.RomSelectInstructionsWritePc := by
  intro s g
  refine ⟨⟨_, rfl, ?nop⟩, ⟨_, rfl, ?selRom⟩, ⟨_, rfl, ?ret⟩, ⟨_, rfl, ?keysToRom⟩⟩
  case nop => rfl
  case selRom => exact s.setPage_transfers g
  case ret => exact s.setOff_transfers s.ret
  case keysToRom => exact s.setOff_transfers s.key

/-! ## BANK (R43, R244) -/

/-- The four bits of BANK hold every digit. -/
theorem toNat_bank_of_digit (d : Digit) : (BitVec.ofNat 4 d.val).toNat = d.val := by
  rw [BitVec.toNat_ofNat]
  exact Nat.mod_eq_of_lt (d.isLt.trans (by decide))

/-- Settles O53: the state it gives differs from `s` in BANK alone, which becomes a digit and so is below 10. -/
theorem bankIsLoadedFromCellTwelve : Obligations.BankIsLoadedFromCellTwelve := by
  intro s
  have bank := toNat_bank_of_digit (s.c.cell 12)
  exact ⟨_, rfl, rfl, bank, bank.trans_lt (s.c.cell 12).isLt⟩

end Sys2Proof.Machine

/-! # Call and branch (47_call_branch.md, R260 to R264) -/

namespace Sys2Proof

/-- The instructions that write the program counter themselves (R264); that no other one does is
`Effect.pc_eq_and_ret_eq`. -/
def Instr.transfersControl : Instr → Bool
  | .selRom _ | .ret | .keysToRom | .jsb _ | .branch _ => true
  | _ => false

namespace Machine

/-! ## The two instructions -/

/-- `BRANCH` takes its target for the offset exactly with carry clear, and keeps the page (R261). -/
theorem exec_branch_eq (target : BitVec 8) (s : State) :
    exec (.branch target) s =
      .next { s with
        pc := addrOf (pageOf s.pc) (if s.cy = false then target else offOf s.pc)
        cy := false } := by
  cases carry : s.cy with
  | false => simp [exec, execBranch, State.setOff, carry]
  | true => simp [exec, execBranch, addrOf_pageOf_offOf, carry]

/-- Settles O54: the word is the target above the tag 1, and the instruction saves the offset before it writes it. -/
theorem jsbSavesTheOffsetAndJumps : Obligations.JsbSavesTheOffsetAndJumps := by
  intro s target
  obtain ⟨frame, page, off⟩ := State.setOff_transfers { s with ret := offOf s.pc } target
  exact ⟨toNat_encodeTarget target 1, _, rfl, frame, page, off, fun success => State.stepCode_of_success success⟩

/-- Settles O55: the word is the target above the tag 3, and `exec_branch_eq` names the two fields that it writes. -/
theorem branchTransfersOnCarryClear : Obligations.BranchTransfersOnCarryClear := fun s target =>
  ⟨toNat_encodeTarget target 3, _, exec_branch_eq target s, rfl, pageOf_addrOf _ _, offOf_addrOf _ _,
    fun success => State.stepCode_of_success success⟩

/-! ## Every decoded instruction (R264) -/

section

variable {s t : State} {i : Instr}

theorem Effect.pc_eq_and_ret_eq (he : Effect s i t) (stays : i.transfersControl = false) : t.pc = s.pc ∧ t.ret = s.ret := by
  cases he with
  | selRom | ret | keysToRom | jsb | branch => cases stays
  | _ => exact ⟨rfl, rfl⟩

/-- After an instruction that does not transfer control the step is at the advanced offset, with RET as it was. -/
theorem step_of_not_transfersControl (hi : decode s.fetch = .ok i) (h : step s = .next t)
    (stays : i.transfersControl = false) :
    pageOf t.pc = pageOf s.pc ∧ offOf t.pc = offOf s.pc + 1 ∧ t.ret = s.ret := by
  rw [step_of_decode_ok hi] at h
  obtain ⟨pc, ret⟩ := (exec_effect h).pc_eq_and_ret_eq stays
  simp [pc, ret]

/-- The words of `BRANCH` are of type D (R73). -/
theorem tagOf_of_decode_branch {w : Word} {target : BitVec 8} (h : decode w = .ok (.branch target)) : tagOf w = 3 := by
  obtain ⟨-, bits⟩ := encodeOfDecode w _ h
  exact (encodeTarget_eq_iff.mp bits).left

/-- A `BRANCH` finds the carry that the step before it left: step 4 does not clear it (R104). -/
theorem step_of_decode_branch {target : BitVec 8} (hi : decode s.fetch = .ok (.branch target)) (h : step s = .next t) :
    t.pc = addrOf (pageOf s.pc) (if s.cy then offOf s.pc + 1 else target) ∧ t.ret = s.ret ∧ t.cy = false := by
  rw [step_of_decode_ok hi, exec_branch_eq] at h
  cases h
  cases carry : s.cy with
  | false => simp [tagOf_of_decode_branch hi, carry]
  | true => simp [tagOf_of_decode_branch hi, carry]

end

/-- Settles O10: five instructions write the program counter after step 2 has advanced it, and the others leave it there. -/
theorem controlTransferOfEveryStep : Obligations.ControlTransferOfEveryStep := by
  intro s t i hi h
  cases i with
  | selRom | ret | keysToRom | jsb =>
    rw [step_of_decode_ok hi] at h
    cases h
    simp
  | branch target =>
    obtain ⟨pc, ret, carry⟩ := step_of_decode_branch hi h
    simp [pc, ret, carry]
  | _ =>
    obtain ⟨page, off, ret⟩ := step_of_not_transfersControl hi h rfl
    exact ⟨page, off, ret, nofun⟩

end Machine

end Sys2Proof

/-! # Undefined opcodes and refusals (60_exceptions.md, R270 to R276) -/

namespace Sys2Proof.Machine

section

variable {s t : State} {i : Instr} {u v : UndefinedOpcode}

/-! ## No refusal (R276) -/

/-- No instruction is refused: type C and `LOAD_CONST` complete or fault, and every other one completes. -/
theorem exec_ne_refused (i : Instr) (s : State) (r : Refusal) : exec i s ≠ .refused r := by
  cases h : i.wordSel with
  | some ws =>
    obtain ⟨op, runs, -⟩ := exec_eq_typeC_touchesField h s
    rw [runs]
    exact typeC_ne_refused ws s op r
  | none =>
    by_cases load : ∃ n, i = .loadConst n
    · obtain ⟨n, rfl⟩ := load
      simp only [exec, execLoadConst]
      split
      · nofun
      · split <;> nofun
    · obtain ⟨t, completes⟩ := exec_completes h (not_exists.1 load) s
      rw [completes]
      nofun

/-- Settles O18: a step answers what its instruction answers, or goes on with the report on record. -/
theorem stepIsNeverRefused : Obligations.StepIsNeverRefused := by
  intro s r
  obtain ⟨i, -, runs⟩ | ⟨u, -, reports⟩ := step_cases s
  · rw [runs]
    exact exec_ne_refused i _ r
  · rw [reports]
    nofun

/-! ## The record of the first report (R274) -/

/-- A later report does not replace the one on record. -/
theorem State.raiseUndefinedOpcode_keeps_record (h : s.undefSeen = some u) :
    (s.raiseUndefinedOpcode v).undefSeen = some u := by
  rw [State.raiseUndefinedOpcode_undefSeen, h]
  rfl

/-- No instruction clears the record: the only effect that writes it is a report. -/
theorem Effect.keeps_record (he : Effect s i t) (h : s.undefSeen = some u) : t.undefSeen = some u := by
  cases he with
  | undefinedFlag n v => exact State.raiseUndefinedOpcode_keeps_record h
  | _ => exact h

theorem step_keeps_record (h : step s = .next t) (seen : s.undefSeen = some u) : t.undefSeen = some u := by
  have begun : (s.beginCycle s.fetch).undefSeen = some u := (s.beginCycle_undefSeen _).trans seen
  obtain ⟨i, -, he⟩ | ⟨v, -, rfl⟩ := step_effect h
  · exact he.keeps_record begun
  · exact State.raiseUndefinedOpcode_keeps_record begun

/-! ## The step of an undefined opcode (R271) -/

/-- Only type A has undefined opcodes, so step 4 clears the carry before the report (R104, R270). -/
theorem tagOf_of_decode_error {w : Word} (h : decode w = .error u) : tagOf w = 0 := by
  by_contra other
  exact decode_ne_error other u h

/-- All that the step of an undefined opcode writes. -/
theorem step_of_decode_error_eq (h : decode s.fetch = .error u) :
    step s = .next { s with
      pc := addrOf (pageOf s.pc) (offOf s.pc + 1)
      status := setFlag s.status 0 s.kdn
      cy := false
      result := .undefined u
      undefSeen := s.undefSeen <|> some u } := by
  have notBranch : ¬ tagOf s.fetch = 3 := by simp [tagOf_of_decode_error h]
  rw [step_of_decode_error h, State.beginCycle_eq, if_neg notBranch]
  rfl

end

/-- Settles O20: no effect of an instruction and no report replaces the record, and the caller's operations do not write it. -/
theorem undefinedRecordIsNeverCleared : Obligations.UndefinedRecordIsNeverCleared :=
  fun _ _ _ _ seen => ⟨fun h => step_keeps_record h seen, seen, seen, seen⟩

/-- Settles O9: `step_of_decode_error_eq` names the five fields written, and of the flags the key merge writes flag 0 alone. -/
theorem undefinedOpcodeStep : Obligations.UndefinedOpcodeStep := by
  intro s u h
  refine ⟨_, step_of_decode_error_eq h, pageOf_addrOf _ _, offOf_addrOf _ _, ?merged, fun n hn => ?kept, rfl, rfl,
    State.stepCode_of_undefined rfl, rfl, rfl⟩
  case merged => rw [flagAt_setFlag _ _ _ _ (by decide), if_pos rfl]
  case kept => rw [flagAt_setFlag _ _ _ _ (by decide), if_neg hn]

end Sys2Proof.Machine

/-! # Reset (70_reset_and_hazards.md, R300 to R303) -/

namespace Sys2Proof.Machine

/-- Every digit-field register is zero after reset (R26, R301). -/
theorem State.reg_reset (r : RegName) : State.reset.reg r = Reg.zero := by
  cases r with
  | a | b | c | d | e | f | m => rfl

/-- `Reset` gives the digit-field registers their reset values. -/
theorem State.reg_hostReset (s : State) (r : RegName) : s.hostReset.reg r = State.reset.reg r := by
  cases r with
  | a | b | c | d | e | f | m => rfl

/-- Every auxiliary location is zero after reset (R48, R301). -/
theorem State.reset_aux_getElem? {b : Nat} (h : b < 10) : State.reset.aux[b]? = some Reg.zero := by
  rw [Vector.getElem?_eq_getElem h]
  exact congrArg some (Vector.getElem_replicate h)

/-- Settles O56: the record is that of `State.reset`, whose registers and locations are `Reg.zero`; the memory is kept. -/
theorem resetZeroesTheRecord : Obligations.ResetZeroesTheRecord := by
  refine fun s => ⟨_, rfl, fun r i _ => ?registers,
    fun b hb => ⟨Reg.zero, State.reset_aux_getElem? hb, fun i _ => ?locations⟩,
    rfl, rfl, rfl, rfl, rfl, rfl, rfl, rfl, rfl, rfl, rfl⟩
  case registers => rw [s.reg_hostReset, State.reg_reset, Reg.cell_zero]
  case locations => exact Reg.cell_zero i

end Sys2Proof.Machine
